-- ==== Sys2Proof/Word.lean ====
section
/-! DEFINITION. The two word types of the controller (00_scope.md R15, R16): every value is unsigned. -/

namespace Sys2Proof

/-- One byte: a wire byte, a status code, a length, a checksum (R15). -/
abbrev Byte := BitVec 8

/-- One 32-bit value: a host register, the timeout, a `Clock()` value (R13, R15). -/
abbrev Word := BitVec 32

end Sys2Proof
end

