-- ==== Sys2Proof/Config.lean ====
section
/-! DEFINITION. What an implementation fixes (00_scope.md R7 to R15), the control values and offsets of the spec's
tables, and the free values the spec leaves open. The parameters that an instantiation chooses are the structure
`Params`: plain data that an endpoint carries and no step writes, so that a statement about every state holds for every
instantiation (log 3). -/

namespace Sys2Proof

/-- Which half of the handshake the engine attempts next (10_state.md R24). -/
inductive Phase where
  | receive
  | transmit
deriving DecidableEq, Repr

/-- The phase policy, one per instantiation (00_scope.md R11). -/
inductive Policy where
  | external
  | autoToggle
deriving DecidableEq, Repr

/-- What the line may do to bytes in flight (00_scope.md R14). -/
inductive LinkModel where
  | ideal
  | lossy
deriving DecidableEq, Repr

/-- The three byte arrays of an endpoint whose reset contents the spec leaves unspecified (10_state.md R45, R46). -/
inductive Buf where
  | frameBuf
  | txData
  | rxData
deriving DecidableEq, Repr

/-- The parameters of one endpoint's instantiation (00_scope.md R8 to R12) and of its platform (20_memory.md R61). -/
structure Params where
  /-- `POLICY` (R11). -/
  policy : Policy
  /-- `INIT_PHASE`, the strap sampled at reset (R12). -/
  initPhase : Phase
  /-- `TIMEOUT_MIN_US`, the floor of SET_TIMEOUT (R8). -/
  timeoutMinUs : Word
  /-- `TOGGLE_INTERVAL_US`, the watchdog interval (R10). -/
  toggleIntervalUs : Word
  /-- `HOST_BASE`, where the platform puts the block in its host's physical address space (20_memory.md R61). -/
  hostBase : Nat
deriving DecidableEq, Repr

/-- This hardware's default instantiation (R8, R10, R11, R12), placed at `HOST_BASE = 0`, which the spec leaves open
(log 20). -/
def Params.default : Params :=
  { policy := .external, initPhase := .receive, timeoutMinUs := 5000, toggleIntervalUs := 10000, hostBase := 0 }

/-- `TIMEOUT_RESET_US = TIMEOUT_MIN_US` (R9). -/
def Params.timeoutResetUs (p : Params) : Word := p.timeoutMinUs

/-- The floors the spec admits: 5000 for this hardware, 500 for the other observed variant (R8). -/
abbrev Params.legal (p : Params) : Prop := p.timeoutMinUs = 5000 ∨ p.timeoutMinUs = 500

namespace Config

/-- Bytes of the Frame Buffer (00_scope.md R7). -/
def bufCapacity : Nat := 500

/-- Bytes of each of the windows TX_DATA and RX_DATA (00_scope.md R15). -/
def windowSize : Nat := 256

/-- Bytes of the host register block, whose addresses have 10 bits (R15). -/
def blockSize : Nat := 1024

/-- The control byte ENQ (30_encoding.md R95). -/
def enq : Byte := 0x05

/-- The control byte ACK (R95). -/
def ack : Byte := 0x06

/-- The control byte CAN (R95). -/
def can : Byte := 0x18

/-- STX, reserved and unused: no rule gives it a meaning (R103). -/
def stx : Byte := 0x02

/-- ETX, reserved and unused: no rule gives it a meaning (R103). -/
def etx : Byte := 0x03

/-- Offsets of the host registers (20_memory.md R61). -/
def offCmd : BitVec 10 := 0x000
def offArg : BitVec 10 := 0x004
def offStatus : BitVec 10 := 0x008
def offPhase : BitVec 10 := 0x00C
def offTimeout : BitVec 10 := 0x010
def offOutLen : BitVec 10 := 0x014
def offRxLen : BitVec 10 := 0x018

/-- First offset past the registers (R61). -/
def regsEnd : Nat := 0x01C

/-- First offset of the TX_DATA window (R61). -/
def txBase : Nat := 0x100

/-- First offset of the RX_DATA window (R61). -/
def rxBase : Nat := 0x200

/-- First offset past the RX_DATA window (R61). -/
def rxEnd : Nat := 0x300

/-- FREE VALUE (log 6). The byte that index `index` of buffer `buf` holds after the reset that took draw `epoch`, until
it is first written: "one fixed but unknown value", one draw per byte (10_state.md R46). -/
opaque resetByte (epoch : Nat) (buf : Buf) (index : Nat) : Byte

/-- FREE VALUE (log 7). What the host's read number `draw` returns for the byte at `offset` of RX_DATA or RX_LEN while
BUSY = 1 (20_memory.md R68). -/
opaque busyByte (draw : Nat) (offset : Nat) : Byte

end Config

/-- How many bytes a buffer has (00_scope.md R7, R15). -/
def Buf.size : Buf → Nat
  | .frameBuf => Config.bufCapacity
  | .txData => Config.windowSize
  | .rxData => Config.windowSize

end Sys2Proof
end

