-- ==== Sys2Proof/Syntax.lean ====
section
/-! DEFINITION. The instructions: one constructor per row of spec/opcode_table.json, and the encoding spaces they live
in (30_encoding.md). A byte's meaning depends on its position in the exchange (R99), so the same byte stands for
different instructions in different spaces. -/

namespace Sys2Proof

/-- The encoding spaces: the host's command word (R90) and the three positions at which the engine treats a wire byte as
control (R100, R101, R102). -/
inductive Space where
  /-- `CMD`: the 32-bit word a host writes to offset 0x000. -/
  | cmd
  /-- `WIRE_RX_FIRST`: the first byte a Receive-phase WORK reads. -/
  | rxFirst
  /-- `WIRE_TX_ACKWAIT`: the first byte a Transmit-phase WORK reads after its ENQ. -/
  | ackWait
  /-- `WIRE_EMIT`: a control byte the engine sends. -/
  | emit
deriving DecidableEq, Repr

/-- How many bytes an item of the space has: the command word four, every wire item one (R90, R97). -/
def Space.size : Space → Nat
  | .cmd => 4
  | .rxFirst => 1
  | .ackWait => 1
  | .emit => 1

/-- The controller's instructions. The `low` operand of a reserved row is the part of the command code that the row
leaves open; the ignored bits CMD[31:8] are no operand (R90). -/
inductive Instr where
  /-- WORK, code 0x01 (40_phase_control.md R120). -/
  | work
  /-- SET_TIMEOUT, code 0x02 (44_timeout.md R205). -/
  | setTimeout
  /-- SET_PHASE, code 0x03 (40_phase_control.md R124). -/
  | setPhase
  /-- Reserved code 0x00 (40_phase_control.md R125). -/
  | reserved00
  /-- Reserved codes 0x04 to 0x07. -/
  | reserved04 (low : BitVec 2)
  /-- Reserved codes 0x08 to 0x0F. -/
  | reserved08 (low : BitVec 3)
  /-- Reserved codes 0x10 to 0x1F. -/
  | reserved10 (low : BitVec 4)
  /-- Reserved codes 0x20 to 0x3F. -/
  | reserved20 (low : BitVec 5)
  /-- Reserved codes 0x40 to 0x7F. -/
  | reserved40 (low : BitVec 6)
  /-- Reserved codes 0x80 to 0xFF. -/
  | reserved80 (low : BitVec 7)
  /-- ENQ read as the first byte of a Receive-phase WORK (41_receive.md R144). -/
  | enq
  /-- CAN read as the first byte of a Receive-phase WORK (41_receive.md R142). -/
  | can
  /-- Any other first byte of a Receive-phase WORK (41_receive.md R143). -/
  | rxOther (byte : Byte)
  /-- ACK read after the engine's ENQ (42_transmit.md R174). -/
  | ack
  /-- Any other byte read after the engine's ENQ (42_transmit.md R173). -/
  | txOther (byte : Byte)
  /-- CAN sent by a Transmit-phase WORK with nothing to send (42_transmit.md R171). -/
  | sendCan
  /-- ENQ sent by a Transmit-phase WORK (42_transmit.md R172). -/
  | sendEnq
  /-- ACK sent by a Receive-phase WORK after reading ENQ (41_receive.md R144). -/
  | sendAck
deriving DecidableEq, Repr

end Sys2Proof
end

