-- ==== Sys2Proof/WellFormed.lean ====
section
/-! DEFINITION. Which instructions are well formed: the two default rows of the opcode table stand for "any other"
byte, so their operand is none of the values that the other rows of their space name (30_encoding.md R100, R101). -/

namespace Sys2Proof

/-- The check of every constructor's operands. -/
def Instr.wellFormed : Instr → Bool
  | .work => true
  | .setTimeout => true
  | .setPhase => true
  | .reserved00 => true
  | .reserved04 _ => true
  | .reserved08 _ => true
  | .reserved10 _ => true
  | .reserved20 _ => true
  | .reserved40 _ => true
  | .reserved80 _ => true
  | .enq => true
  | .can => true
  | .rxOther b => b != Config.enq && b != Config.can
  | .ack => true
  | .txOther b => b != Config.ack
  | .sendCan => true
  | .sendEnq => true
  | .sendAck => true

end Sys2Proof
end

