-- ==== Sys2Proof/Decode.lean ====
section
/-! DEFINITION. The decoder, the encoder and the byte-order helpers they share with the host port (30_encoding.md
R90 to R101; little-endian byte order, 20_memory.md R64). -/

namespace Sys2Proof

/-- Byte `k` of a word, byte 0 being bits [7:0] (20_memory.md R64). -/
def byteOf (w : Word) (k : Nat) : Byte := w.extractLsb' (8 * k) 8

/-- The word whose byte `k` is `f k` for `k < n`, the bytes at and above `n` zero: little-endian assembly
(20_memory.md R62, R64). -/
def leWord (f : Nat → Byte) : Nat → Word
  | 0 => 0
  | n + 1 => leWord f n ||| ((f n).setWidth 32 <<< (8 * n))

/-- The four bytes of a word as the host address space holds them, lowest address first (R64). -/
def wordBytes (w : Word) : List Byte := [byteOf w 0, byteOf w 1, byteOf w 2, byteOf w 3]

/-- Why a byte string is not an instruction. -/
inductive DecodeError where
  /-- The string does not have the length of an item of the space (R90, R97). -/
  | wrongLength (space : Space) (length : Nat)
  /-- The byte is no control byte the engine ever sends (R102). -/
  | notEmitted (byte : Byte)
deriving DecidableEq, Repr

/-- A command word is told by `CMD[7:0]` alone (R90, R91, R92). -/
def decodeCmd (w : Word) : Instr :=
  let code := byteOf w 0
  if code = 0x00 then .reserved00
  else if code = 0x01 then .work
  else if code = 0x02 then .setTimeout
  else if code = 0x03 then .setPhase
  else if code.extractLsb' 2 6 = 1 then .reserved04 (code.setWidth 2)
  else if code.extractLsb' 3 5 = 1 then .reserved08 (code.setWidth 3)
  else if code.extractLsb' 4 4 = 1 then .reserved10 (code.setWidth 4)
  else if code.extractLsb' 5 3 = 1 then .reserved20 (code.setWidth 5)
  else if code.extractLsb' 6 2 = 1 then .reserved40 (code.setWidth 6)
  else .reserved80 (code.setWidth 7)

/-- The first byte a Receive-phase WORK reads (R100). -/
def decodeRxFirst (b : Byte) : Instr :=
  if b = Config.enq then .enq
  else if b = Config.can then .can
  else .rxOther b

/-- The first byte a Transmit-phase WORK reads after its ENQ (R101). -/
def decodeAckWait (b : Byte) : Instr :=
  if b = Config.ack then .ack else .txOther b

/-- The control bytes the engine sends (R102). -/
def decodeEmit (b : Byte) : Except DecodeError Instr :=
  if b = Config.can then .ok .sendCan
  else if b = Config.enq then .ok .sendEnq
  else if b = Config.ack then .ok .sendAck
  else .error (.notEmitted b)

/-- The decoder: total on any bytes, rejecting by name. The space is given by the position at which the bytes stand
(R99). -/
def decode (sp : Space) (bytes : List Byte) : Except DecodeError Instr :=
  match sp, bytes with
  | .cmd, [b0, b1, b2, b3] => .ok (decodeCmd (leWord (fun k => [b0, b1, b2, b3].getD k 0) 4))
  | .rxFirst, [b] => .ok (decodeRxFirst b)
  | .ackWait, [b] => .ok (decodeAckWait b)
  | .emit, [b] => decodeEmit b
  | .cmd, bs => .error (.wrongLength .cmd bs.length)
  | .rxFirst, bs => .error (.wrongLength .rxFirst bs.length)
  | .ackWait, bs => .error (.wrongLength .ackWait bs.length)
  | .emit, bs => .error (.wrongLength .emit bs.length)

/-- The command word with the code `code`; software writes 0 to the ignored bits (R90). -/
def cmdBytes (code : Byte) : List Byte := [code, 0, 0, 0]

/-- The encoder: the space an instruction lives in and its bytes there, written from the tables R91, R92, R100, R101
and R102. -/
def encode : Instr → Space × List Byte
  | .work => (.cmd, cmdBytes 0x01)
  | .setTimeout => (.cmd, cmdBytes 0x02)
  | .setPhase => (.cmd, cmdBytes 0x03)
  | .reserved00 => (.cmd, cmdBytes 0x00)
  | .reserved04 x => (.cmd, cmdBytes (0x04 ||| x.setWidth 8))
  | .reserved08 x => (.cmd, cmdBytes (0x08 ||| x.setWidth 8))
  | .reserved10 x => (.cmd, cmdBytes (0x10 ||| x.setWidth 8))
  | .reserved20 x => (.cmd, cmdBytes (0x20 ||| x.setWidth 8))
  | .reserved40 x => (.cmd, cmdBytes (0x40 ||| x.setWidth 8))
  | .reserved80 x => (.cmd, cmdBytes (0x80 ||| x.setWidth 8))
  | .enq => (.rxFirst, [0x05])
  | .can => (.rxFirst, [0x18])
  | .rxOther b => (.rxFirst, [b])
  | .ack => (.ackWait, [0x06])
  | .txOther b => (.ackWait, [b])
  | .sendCan => (.emit, [0x18])
  | .sendEnq => (.emit, [0x05])
  | .sendAck => (.emit, [0x06])

/-- DESIGN CHOICE (log 15). The space in which a table word of `nbits` bits is read when nothing but its bits is known: a
word of at most 8 bits that is one of the three control values is a wire byte (ACK in the acknowledgement wait, ENQ and
CAN as a first byte); every other word is a command word. No step of the machine asks this: a step knows the space from
the position (R99). -/
def tableSpace (nbits w : Nat) : Space :=
  if nbits ≤ 8 then
    if w = 0x06 then .ackWait
    else if w = 0x05 ∨ w = 0x18 then .rxFirst
    else .cmd
  else .cmd

/-- The bytes of a table word, laid out for its space: bits above the word are 0. -/
def tableBytes (nbits w : Nat) : List Byte :=
  match tableSpace nbits w with
  | .cmd => wordBytes (BitVec.ofNat 32 (w % 2 ^ nbits))
  | .rxFirst => [BitVec.ofNat 8 w]
  | .ackWait => [BitVec.ofNat 8 w]
  | .emit => [BitVec.ofNat 8 w]

/-- The instruction the decoder reads from a word of spec/opcode_table.json. -/
def decodeTableWord (nbits w : Nat) : Option Instr :=
  match decode (tableSpace nbits w) (tableBytes nbits w) with
  | .ok i => some i
  | .error _ => none

end Sys2Proof
end

