-- ==== Sys2Proof/Machine/State.lean ====
section
/-! DEFINITION. The state of one link: two endpoints, each the controller with its environment (transport, clock) and
parameters, and the events that say which agent moves next (10_state.md R20 to R46, 45_transport_adapter.md,
60_exceptions.md R254). All of it is plain data. -/

namespace Sys2Proof.Machine

/-- One of the link's two endpoints (60_exceptions.md R254; the names are the model's). -/
inductive Side where
  | a
  | b
deriving DecidableEq, Repr

/-- The peer of an endpoint. -/
def Side.other : Side → Side
  | .a => .b
  | .b => .a

/-- The five calls of `ReadByteTimed` in the pseudocode of WORK (41_receive.md R140, 42_transmit.md R170). -/
inductive Wait where
  /-- The control byte of a receive attempt. -/
  | rx1
  /-- The length byte. -/
  | rx4
  /-- A payload byte. -/
  | rx5
  /-- The checksum byte. -/
  | rx7
  /-- The ACK of a transmit attempt. -/
  | tx3
deriving DecidableEq, Repr

/-- The sequencer position `SEQ`: the label of the next atomic step (10_state.md R23). A wait carries the call it
serves, and `rd` is the `TryReadByte` that ends the call (44_timeout.md R200, R202; log 5). A step that begins with the
rest of a line, after the adapter call of that line, has a position of its own: `toggle`, `latch` and `store`
(00_scope.md R18; log 4). -/
inductive Seq where
  | idle
  /-- W1, at its `Clock()`. -/
  | w1
  /-- W1 after its `Clock()`: the comparison of `t`, then W2 and the path's first call. -/
  | toggle
  /-- RX4 after its read: the length byte is in `r`. -/
  | latch
  /-- RX5 after its read: payload byte `i` is in `r`. -/
  | store
  | wb0 (call : Wait)
  | wb1 (call : Wait)
  | wb2 (call : Wait)
  | rd (call : Wait)
  | rx3
  | rx8
  | tx1
  | tx2
  | tx4
  | tx5
  | tx6
  | tx7
deriving DecidableEq, Repr

/-- The status codes of `STATUS.CODE`, one constructor for each value that is ever produced (30_encoding.md R93;
log 24). -/
inductive Status where
  | idleNoData
  | peerCancelled
  | ackTimeout
  | lenTimeout
  | payloadTimeout
  | checksumTimeout
  | checksumMismatch
  | frameApplied
  | frameTransmitted
  | nothingToSend
  | badCommand
  | none
deriving DecidableEq, Repr

/-- A byte array: the bytes written since reset, as (index, byte) cells with strictly rising indices. An index that is
not listed is a byte nothing has written since reset (10_state.md R46; log 22). -/
abbrev Memory := List Host.Cell

/-- One endpoint: the controller's fields (10_state.md R24 to R40), its environment (45_transport_adapter.md R221 to
R224), its parameters (00_scope.md R8 to R12) and the model's own bookkeeping. -/
structure Endpoint where
  /-- The instantiation's parameters; no step writes them. -/
  params : Params
  /-- `PHASE` (R24). -/
  phase : Phase
  /-- `TIMEOUT` in microseconds (R25). -/
  timeout : Word
  /-- `WD`, the watchdog timestamp (R26). -/
  wd : Word
  /-- `FRAME_BUF[0..499]` (R27). -/
  frameBuf : Memory
  /-- `COUNT` (R28). -/
  count : BitVec 16
  /-- `LEN` (R29). -/
  len : Byte
  /-- `CKSUM` (R30). -/
  cksum : Byte
  /-- `SEQ` (R23). -/
  seq : Seq
  /-- `WSTART` (R31). -/
  wstart : Word
  /-- The payload loop index `i` (R31). -/
  i : BitVec 9
  /-- The pseudocode's `t` of W1, from its `Clock()` to the step that compares it (40_phase_control.md R122). -/
  t : Word
  /-- The pseudocode's `r` of RX4 and RX5, from the read to the step that stores it (41_receive.md R145, R146). -/
  r : Byte
  /-- `STATUS.CODE` (R32). -/
  code : Status
  /-- `STATUS.BUSY` (R32). -/
  busy : Bool
  /-- `ARG` (R34). -/
  arg : Word
  /-- `OUT_LEN` (R37). -/
  outLen : Byte
  /-- `RX_LEN` (R38). -/
  rxLen : Byte
  /-- `TX_DATA[0..255]` (R39). -/
  txData : Memory
  /-- `RX_DATA[0..255]` (R40). -/
  rxData : Memory
  /-- `IN`, the transport's receive FIFO, oldest byte first (45_transport_adapter.md R221). -/
  inq : List Byte
  /-- `OUT`, the bytes written and not yet taken by the line, oldest first (45_transport_adapter.md R223). -/
  outq : List Byte
  /-- `T`, microseconds since the reference instant (45_transport_adapter.md R224). -/
  time : Nat
  /-- The model's own: the draw that the latest reset took (log 6, log 12). -/
  epoch : Nat
  /-- The model's own, the host agent's: the value its latest `MemRead` returned (log 11). -/
  rdata : Word
deriving DecidableEq, Repr

/-- The widths of a host access (20_memory.md R62, R63). -/
inductive Width where
  | w1
  | w2
  | w4
deriving DecidableEq, Repr

/-- One step of one agent (10_state.md R20, 00_scope.md R18). -/
inductive Event where
  /-- The host of `x` reads `n` bytes at its physical address `addr`: `MemRead` where that is in the block (20_memory.md
  R61, R62). -/
  | hostRead (x : Side) (addr : Nat) (n : Width)
  /-- The host of `x` writes `n` bytes at its physical address `addr`: `MemWrite` where that is in the block; a narrower
  access uses the low bytes of `v` (R61, R63; log 25). -/
  | hostWrite (x : Side) (addr : Nat) (n : Width) (v : Word)
  /-- The engine of `x` takes the atomic step its sequencer stands at (R23). -/
  | engine (x : Side)
  /-- The clock of `x` advances by `d` microseconds (45_transport_adapter.md R224). -/
  | clock (x : Side) (d : Nat)
  /-- The line delivers the oldest byte `x` wrote to the peer (R227, Ideal). -/
  | deliver (x : Side)
  /-- The line loses the oldest byte `x` wrote (R227, Lossy). -/
  | lose (x : Side)
  /-- The line delivers `b` in place of the oldest byte `x` wrote (R227, Lossy). -/
  | corrupt (x : Side) (b : Byte)
  /-- The line delivers a byte `b` to `x` that nobody wrote (R227, Lossy). -/
  | noise (x : Side) (b : Byte)
  /-- The reset input of `x` is asserted (70_reset_and_hazards.md R270). -/
  | reset (x : Side)
deriving DecidableEq, Repr

/-- The state of the link. -/
structure State where
  /-- One endpoint. -/
  a : Endpoint
  /-- The other endpoint. -/
  b : Endpoint
  /-- `LINK_MODEL`; no step writes it (00_scope.md R14). -/
  linkModel : LinkModel
  /-- The model's own: the endpoint the current step belongs to (log 2). -/
  turn : Side
  /-- The model's own: the steps still to come, each of one agent, next first (log 1). -/
  sched : List Event
  /-- The model's own: how many draws of free values have been numbered (log 12). -/
  draws : Nat
deriving DecidableEq, Repr

/-- Why a meaning stops. The controller itself has no fault (60_exceptions.md R240) and no step of the machine raises
either of these; they bound the meanings of the wire instructions, which exist at one position only (30_encoding.md
R99; log 13). -/
inductive Fault where
  /-- Raised by the meanings of ENQ, CAN, RX_OTHER, ACK, TX_OTHER, SEND_CAN, SEND_ENQ and SEND_ACK where the sequencer
  does not stand at their position. Safe: the spec gives the byte no such meaning there. -/
  | notAtPosition
  /-- Raised by the meanings of ENQ, CAN, RX_OTHER, ACK and TX_OTHER at their position when the inbound FIFO is empty.
  Safe: there is no byte to decode. -/
  | noByte
deriving DecidableEq, Repr

/-- Why a step has no meaning. No step of the machine answers with either. -/
inductive Refusal where
  /-- Raised by the dispatch for an instruction that has no meaning yet; every instruction has one. Safe. -/
  | notModelled (mnemonic : String)
  /-- Raised by the step for fetched bytes that the decoder rejects; the fetch of this machine never gives such bytes.
  Safe. -/
  | undecodable
deriving DecidableEq, Repr

/-- An endpoint right after the reset that took draw `epoch`, with the clock at 0, nothing in flight and the parameters
`p` (10_state.md R45; the values the table leaves open: log 6, log 8, log 9, log 10, log 11). -/
def Endpoint.fresh (p : Params) (epoch : Nat) : Endpoint :=
  { params := p
    phase := p.initPhase
    timeout := p.timeoutResetUs
    wd := 0
    frameBuf := []
    count := 0
    len := 0
    cksum := 0
    seq := .idle
    wstart := 0
    i := 0
    t := 0
    r := 0
    code := .none
    busy := false
    arg := 0
    outLen := 0
    rxLen := 0
    txData := []
    rxData := []
    inq := []
    outq := []
    time := 0
    epoch := epoch
    rdata := 0 }

/-- The link right after reset: both endpoints of the default instantiation reset at clock 0, nothing in flight, no
event to come: the controller executes nothing until a host writes CMD (70_reset_and_hazards.md R271; log 3, log 16). -/
def State.reset : State :=
  { a := Endpoint.fresh Params.default 0
    b := Endpoint.fresh Params.default 1
    linkModel := .ideal
    turn := .a
    sched := []
    draws := 2 }

end Sys2Proof.Machine
end

