-- ==== Sys2Proof/Machine/Ops.lean ====
section
/-! DEFINITION. The named operations over the state: the byte arrays, the acting endpoint, the four adapter primitives
(45_transport_adapter.md R220 to R224), the elapsed-time comparison (44_timeout.md R201), the reset event
(70_reset_and_hazards.md R270), completion, which is also the failure completion that takes the place of trap entry
(40_phase_control.md R121, 60_exceptions.md R248), and the guards of the wire instructions' positions. -/

namespace Sys2Proof.Machine

/-! Byte arrays. -/

/-- The byte at `index`, if it has been written since reset. -/
def Memory.read? : Memory → Nat → Option Byte
  | [], _ => none
  | c :: m, index => if c.1 = index then some c.2 else Memory.read? m index

/-- Write `b` at `index`, keeping the cells in rising order. -/
def Memory.write : Memory → Nat → Byte → Memory
  | [], index, b => [(index, b)]
  | c :: m, index, b =>
    if index < c.1 then (index, b) :: c :: m
    else if index = c.1 then (index, b) :: m
    else c :: Memory.write m index b

/-- The canonical form: indices strictly rising. (No listed byte equals what its index reads as when unlisted, since an
unlisted index holds no written byte.) -/
def Memory.wf : Memory → Bool
  | [] => true
  | [_] => true
  | c :: d :: m => decide (c.1 < d.1) && Memory.wf (d :: m)

/-- `for k in 0 .. n-1: m[base + k] <- f k`. -/
def Memory.copyIn (m : Memory) (base : Nat) (f : Nat → Byte) : Nat → Memory
  | 0 => m
  | n + 1 => Memory.write (Memory.copyIn m base f n) (base + n) (f n)

/-- The byte an array holds: the written one, or the draw of the latest reset (10_state.md R46). An index past the array's
size is no byte of it, and what stands here for it is a free value (log 26). -/
def Endpoint.bufByte (e : Endpoint) (buf : Buf) (m : Memory) (index : Nat) : Byte :=
  match Memory.read? m index with
  | some b => if index < buf.size then b else Config.resetByte e.epoch buf index
  | none => Config.resetByte e.epoch buf index

/-- `FRAME_BUF[index]` (10_state.md R27). -/
def Endpoint.frameByte (e : Endpoint) (index : Nat) : Byte := e.bufByte .frameBuf e.frameBuf index

/-- `TX_DATA[index]` (10_state.md R39). -/
def Endpoint.txByte (e : Endpoint) (index : Nat) : Byte := e.bufByte .txData e.txData index

/-- `RX_DATA[index]` (10_state.md R40). -/
def Endpoint.rxByte (e : Endpoint) (index : Nat) : Byte := e.bufByte .rxData e.rxData index

/-- `FRAME_BUF[index] <- b`. The buffer has 500 bytes and no other (00_scope.md R7; log 26). -/
def Endpoint.storeFrame (e : Endpoint) (index : Nat) (b : Byte) : Endpoint :=
  if index < Config.bufCapacity then { e with frameBuf := e.frameBuf.write index b } else e

/-! The acting endpoint. -/

/-- The endpoint `x` of the link. -/
def State.get (s : State) : Side → Endpoint
  | .a => s.a
  | .b => s.b

/-- The link with `e` as its endpoint `x`. -/
def State.put (s : State) (x : Side) (e : Endpoint) : State :=
  match x with
  | .a => { s with a := e }
  | .b => { s with b := e }

/-- The endpoint the current step belongs to. -/
def State.cur (s : State) : Endpoint := s.get s.turn

/-- Replace the endpoint the current step belongs to. -/
def State.setCur (s : State) (e : Endpoint) : State := s.put s.turn e

/-- Make `x` the endpoint the current step belongs to. -/
def State.atSide (s : State) (x : Side) : State := { s with turn := x }

/-! The adapter primitives. -/

/-- `ByteAvailable()` (45_transport_adapter.md R221). -/
def Endpoint.byteAvailable (e : Endpoint) : Bool := !e.inq.isEmpty

/-- `TryReadByte()`: the oldest byte, if any, and the endpoint without it (R222). -/
def Endpoint.tryReadByte (e : Endpoint) : Option Byte × Endpoint :=
  match e.inq with
  | [] => (none, e)
  | b :: rest => (some b, { e with inq := rest })

/-- `WriteByte(b)`: append to the outbound stream; it never blocks and never fails (R223). -/
def Endpoint.writeByte (e : Endpoint) (b : Byte) : Endpoint := { e with outq := e.outq ++ [b] }

/-- `Clock()`: `T mod 2^32` (R224). -/
def Endpoint.clock (e : Endpoint) : Word := BitVec.ofNat 32 e.time

/-- The elapsed-time comparison: `((later - earlier) mod 2^32) > limit`, unsigned (44_timeout.md R201). -/
def expired (later earlier limit : Word) : Bool := decide (limit < later - earlier)

/-! Completion and reset. -/

/-- Completion of a command with status `c`: CODE and BUSY change and the sequencer returns to Idle in one step
(40_phase_control.md R121). A failing WORK ends the same way: nothing is saved, nothing is vectored
(60_exceptions.md R248). -/
def Endpoint.complete (e : Endpoint) (c : Status) : Endpoint :=
  { e with code := c, busy := false, seq := .idle }

/-- The reset event at one endpoint, which takes draw `epoch` for the unspecified contents of its buffers
(70_reset_and_hazards.md R270, R272; 10_state.md R45; log 8, log 17, log 23). The transport's FIFOs, the clock, the
parameters and the host's own `rdata` are not the controller's and stay. -/
def Endpoint.resetTo (e : Endpoint) (epoch : Nat) : Endpoint :=
  { e with
    phase := e.params.initPhase
    timeout := e.params.timeoutResetUs
    wd := e.clock
    frameBuf := []
    count := 0
    len := 0
    cksum := 0
    seq := .idle
    wstart := 0
    i := 0
    t := 0
    r := 0
    code := .none
    busy := false
    arg := 0
    outLen := 0
    rxLen := 0
    txData := []
    rxData := []
    epoch := epoch }

/-- The reset input of the acting endpoint is asserted. The draw it takes is numbered by the link's counter. -/
def State.resetCur (s : State) : State :=
  { s.setCur (s.cur.resetTo s.draws) with draws := s.draws + 1 }

/-! Positions. -/

/-- The meaning of a wire byte read as control: at the `TryReadByte` of `call` it takes the byte from the inbound FIFO
and goes on with `k`; away from that position the byte is no such instruction (30_encoding.md R99; log 13). -/
def atControl (call : Wait) (k : Endpoint → Endpoint) (s : State) : Host.Outcome State Fault Refusal :=
  if s.cur.seq = .rd call then
    match s.cur.tryReadByte with
    | (some _, e) => .next (s.setCur (k e))
    | (none, _) => .fault .noByte
  else .fault .notAtPosition

/-- The meaning of a control byte sent: at position `pos` it is passed to `WriteByte` and the engine goes on with `k`;
the engine emits it nowhere else (30_encoding.md R102; log 13). -/
def atEmit (pos : Seq) (b : Byte) (k : Endpoint → Endpoint) (s : State) : Host.Outcome State Fault Refusal :=
  if s.cur.seq = pos then .next (s.setCur (k (s.cur.writeByte b)))
  else .fault .notAtPosition

/-- The meaning of a command word: accepted while BUSY = 0, ignored entirely while BUSY = 1 (40_phase_control.md R121,
R126). -/
def accept (k : Endpoint → Endpoint) (s : State) : Host.Outcome State Fault Refusal :=
  if s.cur.busy then .next s else .next (s.setCur (k s.cur))

end Sys2Proof.Machine
end

