-- ==== Sys2Proof/Machine/Checksum.lean ====
section
/-! DEFINITION. The XOR checksum (43_checksum.md R190 to R195): the accumulator starts from 0 at every computation, so
the result depends on the `n` bytes alone. -/

namespace Sys2Proof.Machine

/-- `XorFold(a, n)` (R190). -/
def xorFold (a : Nat → Byte) : Nat → Byte
  | 0 => 0
  | n + 1 => xorFold a n ^^^ a n

/-- `CKSUM <- XorFold(FRAME_BUF, LEN)` (41_receive.md R147). -/
def Endpoint.foldFrame (e : Endpoint) : Endpoint :=
  { e with cksum := xorFold e.frameByte e.len.toNat }

/-- `CKSUM <- XorFold(TX_DATA, n)` with `n = OUT_LEN` (42_transmit.md R174). -/
def Endpoint.foldTx (e : Endpoint) : Endpoint :=
  { e with cksum := xorFold e.txByte e.outLen.toNat }

end Sys2Proof.Machine
end

