-- ==== Sys2Proof/Machine/Flags.lean ====
section
/-! DEFINITION. What a host observes of the controller's status (10_state.md R42): the status codes' values
(30_encoding.md R93) and the words of STATUS and PHASE (10_state.md R32, R35). There are no arithmetic condition
codes. -/

namespace Sys2Proof.Machine

/-- The value of a status code (R93). -/
def Status.value : Status → Byte
  | .idleNoData => 0x00
  | .peerCancelled => 0x01
  | .ackTimeout => 0x02
  | .lenTimeout => 0x03
  | .payloadTimeout => 0x04
  | .checksumTimeout => 0x05
  | .checksumMismatch => 0x06
  | .frameApplied => 0x07
  | .frameTransmitted => 0x08
  | .nothingToSend => 0x09
  | .badCommand => 0xFE
  | .none => 0xFF

/-- The bit of a phase: 0 Receive, 1 Transmit (R24). -/
def phaseBit : Phase → BitVec 1
  | .receive => 0
  | .transmit => 1

/-- The phase of a bit (R24). -/
def phaseOfBit (v : BitVec 1) : Phase := if v = 0 then .receive else .transmit

/-- `1 - PHASE` (40_phase_control.md R120). -/
def phaseFlip : Phase → Phase
  | .receive => .transmit
  | .transmit => .receive

/-- The bit of a policy: 0 External, 1 AutoToggle (R35). -/
def policyBit : Policy → BitVec 1
  | .external => 0
  | .autoToggle => 1

/-- `STATUS`: CODE in bits [7:0], BUSY in bit 8, the rest 0 (R32). -/
def Endpoint.statusWord (e : Endpoint) : Word :=
  (BitVec.ofBool e.busy ++ Status.value e.code).setWidth 32

/-- The PHASE register: PHASE in bit 0, POLICY in bit 1, the rest 0 (R35). -/
def Endpoint.phaseWord (e : Endpoint) : Word :=
  (policyBit e.params.policy ++ phaseBit e.phase).setWidth 32

end Sys2Proof.Machine
end

