-- ==== Sys2Proof/Machine/Operands.lean ====
section
/-! DEFINITION. The operands of the commands (30_encoding.md R104, R105): the host registers as they stand. No command
carries an immediate. -/

namespace Sys2Proof.Machine

/-- SET_TIMEOUT's operand: all of ARG, unsigned microseconds (R104). -/
def Endpoint.requestedTimeout (e : Endpoint) : Word := e.arg

/-- SET_PHASE's operand: `ARG[0]`, the other bits ignored (R104, R105). -/
def Endpoint.requestedPhase (e : Endpoint) : Phase := phaseOfBit (e.arg.extractLsb' 0 1)

/-- `max(a, b)`, unsigned (00_scope.md R16). -/
def maxWord (a b : Word) : Word := if a < b then b else a

/-- WORK's `outLength`: `n = OUT_LEN[7:0]` (R105). -/
def Endpoint.outLength (e : Endpoint) : Nat := e.outLen.toNat

end Sys2Proof.Machine
end

