-- ==== Sys2Proof/Machine/Engine.lean ====
section
/-! DEFINITION. The engine's atomic steps that no row of the opcode table names: the phase dispatch and the watchdog
check of WORK (40_phase_control.md R120, R122, R123), the bounded wait (44_timeout.md R200, R202), the data bytes of the
receive path (41_receive.md R145 to R150) and of the transmit path (42_transmit.md R174, R175). One adapter primitive
call is one step, and begins with the local computation since the call before it; what follows a command's last call
belongs to that call's step (00_scope.md R18, 40_phase_control.md R121; log 4). -/

namespace Sys2Proof.Machine

/-- Step W2: the path of the phase held now, and the first adapter call of that path (R123; TX1 tests OUT_LEN, 42_transmit.md
R170; log 21). -/
def Endpoint.dispatch (e : Endpoint) : Endpoint :=
  match e.phase with
  | .receive => { e with seq := .wb0 .rx1 }
  | .transmit => if e.outLen = 0 then { e with seq := .tx1 } else { e with seq := .tx2 }

/-- Acceptance of WORK: `BUSY <- 1`, then W1, which reads the clock under AutoToggle only (R120, R122). -/
def Endpoint.startWork (e : Endpoint) : Endpoint :=
  match e.params.policy with
  | .autoToggle => { e with busy := true, seq := .w1 }
  | .external => { e with busy := true }.dispatch

/-- W1 under AutoToggle: `t <- Clock()` (R122). -/
def Endpoint.readWatch (e : Endpoint) : Endpoint := { e with t := e.clock, seq := .toggle }

/-- The rest of W1: the watchdog check on `t`, then the dispatch (R122). -/
def Endpoint.watchdog (e : Endpoint) : Endpoint :=
  if expired e.t e.wd e.params.toggleIntervalUs then
    { e with phase := phaseFlip e.phase, wd := e.t }.dispatch
  else e.dispatch

/-- The status a command ends with when the wait of `call` gave no byte (41_receive.md R141, R145, R146, R148;
42_transmit.md R172). -/
def Wait.timeoutStatus : Wait → Status
  | .rx1 => .idleNoData
  | .rx4 => .lenTimeout
  | .rx5 => .payloadTimeout
  | .rx7 => .checksumTimeout
  | .tx3 => .ackTimeout

/-- WB0: `WSTART <- Clock()` (44_timeout.md R200). -/
def Endpoint.waitStart (e : Endpoint) (call : Wait) : Endpoint :=
  { e with wstart := e.clock, seq := .wb1 call }

/-- WB1: `ByteAvailable()`; a byte found ends the wait, whatever the clock reads (R200, 60_exceptions.md R246). -/
def Endpoint.waitPoll (e : Endpoint) (call : Wait) : Endpoint :=
  if e.byteAvailable then { e with seq := .rd call } else { e with seq := .wb2 call }

/-- WB2: the clock against the window; past it the command ends, else the wait polls again (R200). -/
def Endpoint.waitClock (e : Endpoint) (call : Wait) : Endpoint :=
  if expired e.clock e.wstart e.timeout then e.complete call.timeoutStatus else { e with seq := .wb1 call }

/-- RX6: `CKSUM <- XorFold(FRAME_BUF, LEN)`, then the wait for the checksum byte (41_receive.md R147). The count check has
no failing branch (log 4). -/
def Endpoint.enterChecksum (e : Endpoint) : Endpoint := { e.foldFrame with seq := .wb0 .rx7 }

/-- The rest of RX4: `LEN <- r; COUNT <- 0`; a zero length skips RX5 (41_receive.md R145, R152). -/
def Endpoint.latchLength (e : Endpoint) : Endpoint :=
  let e := { e with len := e.r, count := 0, i := 0 }
  if e.r = 0 then e.enterChecksum else { e with seq := .wb0 .rx5 }

/-- The rest of RX5: `FRAME_BUF[i] <- r; COUNT <- i + 1`, then the next payload byte or RX6 (41_receive.md R146). -/
def Endpoint.storePayload (e : Endpoint) : Endpoint :=
  let e := { e.storeFrame e.i.toNat e.r with count := e.i.setWidth 16 + 1, i := e.i + 1 }
  if e.i.toNat < e.len.toNat then { e with seq := .wb0 .rx5 } else e.enterChecksum

/-- RX8's comparison with the checksum byte `r` (41_receive.md R149, R150). -/
def Endpoint.checkFrame (e : Endpoint) (r : Byte) : Endpoint :=
  if r = e.cksum then { e with seq := .rx8 } else e.complete .checksumMismatch

/-- RX8's success branch: copy the frame, flip to Transmit, refresh WD, FRAME_APPLIED, in the step of its `Clock()`
(41_receive.md R150; 70_reset_and_hazards.md R272; log 4). -/
def Endpoint.applyFrame (e : Endpoint) : Endpoint :=
  { e with
    rxData := e.rxData.copyIn 0 e.frameByte e.len.toNat
    rxLen := e.len
    phase := .transmit
    wd := e.clock }.complete .frameApplied

/-- `TryReadByte` at a data position, the byte already taken from the FIFO (41_receive.md R145, R146, R148). The bytes read
at RX1 and TX3 are control: they are instructions of the opcode table, with meanings of their own, and no data. -/
def Endpoint.takeData (e : Endpoint) (call : Wait) (r : Byte) : Endpoint :=
  match call with
  | .rx4 => { e with r := r, seq := .latch }
  | .rx5 => { e with r := r, seq := .store }
  | .rx7 => e.checkFrame r
  | .rx1 => e
  | .tx3 => e

/-- `TryReadByte` at the end of `ReadByteTimed`; no byte counts as none, like a window that passed (44_timeout.md R202;
log 14). -/
def Endpoint.readData (e : Endpoint) (call : Wait) : Endpoint :=
  match e.tryReadByte with
  | (some r, e') => e'.takeData call r
  | (none, _) => e.complete call.timeoutStatus

/-- TX4: `WriteByte(n)` (42_transmit.md R174). -/
def Endpoint.sendLength (e : Endpoint) : Endpoint :=
  let e := { e.writeByte e.outLen with i := 0 }
  if e.outLen = 0 then { e with seq := .tx6 } else { e with seq := .tx5 }

/-- TX5: `WriteByte(TX_DATA[i])`, then the next payload byte or TX6 (42_transmit.md R174). -/
def Endpoint.sendPayload (e : Endpoint) : Endpoint :=
  let e := { e.writeByte (e.txByte e.i.toNat) with i := e.i + 1 }
  if e.i.toNat < e.outLength then { e with seq := .tx5 } else { e with seq := .tx6 }

/-- TX6: `CKSUM <- XorFold(TX_DATA, n); WriteByte(CKSUM)` (42_transmit.md R174). -/
def Endpoint.sendChecksum (e : Endpoint) : Endpoint :=
  { e.foldTx.writeByte e.foldTx.cksum with seq := .tx7 }

/-- TX7: flip to Receive, refresh WD, FRAME_TRANSMITTED (42_transmit.md R175). -/
def Endpoint.finishTransmit (e : Endpoint) : Endpoint :=
  { e with phase := .receive, wd := e.clock }.complete .frameTransmitted

/-- The local computation with which the engine's next step begins, where the line before left one to do (00_scope.md R18;
log 4). It leads to the position of the step's adapter call. -/
def Endpoint.settle (e : Endpoint) : Endpoint :=
  match e.seq with
  | .toggle => e.watchdog
  | .latch => e.latchLength
  | .store => e.storePayload
  | .idle => e
  | .w1 => e
  | .wb0 _ => e
  | .wb1 _ => e
  | .wb2 _ => e
  | .rd _ => e
  | .rx3 => e
  | .rx8 => e
  | .tx1 => e
  | .tx2 => e
  | .tx4 => e
  | .tx5 => e
  | .tx6 => e
  | .tx7 => e

/-- The engine's adapter call at a position where no instruction of the opcode table stands. Idle does nothing
(60_exceptions.md R258). At RX3, TX1 and TX2 the engine sends a control byte, which is an instruction: those positions are
fetched and never come here, and `settle` leads away from `toggle`, `latch` and `store`. -/
def Endpoint.engineStep (e : Endpoint) : Endpoint :=
  match e.seq with
  | .idle => e
  | .w1 => e.readWatch
  | .toggle => e
  | .latch => e
  | .store => e
  | .wb0 call => e.waitStart call
  | .wb1 call => e.waitPoll call
  | .wb2 call => e.waitClock call
  | .rd call => e.readData call
  | .rx3 => e
  | .rx8 => e.applyFrame
  | .tx1 => e
  | .tx2 => e
  | .tx4 => e.sendLength
  | .tx5 => e.sendPayload
  | .tx6 => e.sendChecksum
  | .tx7 => e.finishTransmit

end Sys2Proof.Machine
end

