-- ==== Sys2Proof/Machine/Command.lean ====
section
/-! DEFINITION. The host commands (30_encoding.md R91, R92): WORK, SET_TIMEOUT, SET_PHASE and the reserved codes. Each is
accepted while BUSY = 0 and ignored entirely while BUSY = 1 (40_phase_control.md R121, R126). -/

namespace Sys2Proof.Machine

/-- `STATUS.CODE <- 0xFE`, nothing else (40_phase_control.md R125). -/
def badCommand (e : Endpoint) : Endpoint := { e with code := .badCommand }

/-- WORK (40_phase_control.md R120): BUSY is set in the accepting step, and the engine's steps do the rest. -/
def execWork (s : State) : Host.Outcome State Fault Refusal := accept Endpoint.startWork s

/-- SET_TIMEOUT (44_timeout.md R205): `TIMEOUT <- max(ARG, TIMEOUT_MIN_US)`, complete in the accepting step. -/
def execSetTimeout (s : State) : Host.Outcome State Fault Refusal :=
  accept (fun e => { e with timeout := maxWord e.requestedTimeout e.params.timeoutMinUs }) s

/-- SET_PHASE (40_phase_control.md R124): `PHASE <- ARG[0]`, complete in the accepting step. -/
def execSetPhase (s : State) : Host.Outcome State Fault Refusal :=
  accept (fun e => { e with phase := e.requestedPhase }) s

/-- RESERVED_00 (40_phase_control.md R125). -/
def execReserved00 (s : State) : Host.Outcome State Fault Refusal := accept badCommand s

/-- RESERVED_04_07 (R125). -/
def execReserved04 (_low : BitVec 2) (s : State) : Host.Outcome State Fault Refusal := accept badCommand s

/-- RESERVED_08_0F (R125). -/
def execReserved08 (_low : BitVec 3) (s : State) : Host.Outcome State Fault Refusal := accept badCommand s

/-- RESERVED_10_1F (R125). -/
def execReserved10 (_low : BitVec 4) (s : State) : Host.Outcome State Fault Refusal := accept badCommand s

/-- RESERVED_20_3F (R125). -/
def execReserved20 (_low : BitVec 5) (s : State) : Host.Outcome State Fault Refusal := accept badCommand s

/-- RESERVED_40_7F (R125). -/
def execReserved40 (_low : BitVec 6) (s : State) : Host.Outcome State Fault Refusal := accept badCommand s

/-- RESERVED_80_FF (R125). -/
def execReserved80 (_low : BitVec 7) (s : State) : Host.Outcome State Fault Refusal := accept badCommand s

end Sys2Proof.Machine
end

