-- ==== Sys2Proof/Machine/WireEmit.lean ====
section
/-! DEFINITION. The control bytes the engine sends (30_encoding.md R102). Each meaning is the step of the `WriteByte` that
passes the byte to the transport. -/

namespace Sys2Proof.Machine

/-- SEND_CAN (42_transmit.md R171): CAN alone, `PHASE <- Receive`, NOTHING_TO_SEND; WD not written. -/
def execSendCan (s : State) : Host.Outcome State Fault Refusal :=
  atEmit .tx1 Config.can (fun e => { e with phase := .receive }.complete .nothingToSend) s

/-- SEND_ENQ (42_transmit.md R172): ENQ, then the wait for the ACK. -/
def execSendEnq (s : State) : Host.Outcome State Fault Refusal :=
  atEmit .tx2 Config.enq (fun e => { e with seq := .wb0 .tx3 }) s

/-- SEND_ACK (41_receive.md R144): ACK, then the wait for the length byte. -/
def execSendAck (s : State) : Host.Outcome State Fault Refusal :=
  atEmit .rx3 Config.ack (fun e => { e with seq := .wb0 .rx4 }) s

end Sys2Proof.Machine
end

