-- ==== Sys2Proof/Machine/WireRead.lean ====
section
/-! DEFINITION. The wire bytes the engine reads as control: the first byte of a Receive-phase WORK (30_encoding.md R100)
and the byte a Transmit-phase WORK reads after its ENQ (R101). Each meaning is the step of the `TryReadByte` that takes
the byte. -/

namespace Sys2Proof.Machine

/-- ENQ (41_receive.md R144): the ACK comes next. -/
def execEnq (s : State) : Host.Outcome State Fault Refusal :=
  atControl .rx1 (fun e => { e with seq := .rx3 }) s

/-- CAN (41_receive.md R142): `PHASE <- Transmit`, PEER_CANCELLED; no ACK, WD not written. -/
def execCan (s : State) : Host.Outcome State Fault Refusal :=
  atControl .rx1 (fun e => { e with phase := .transmit }.complete .peerCancelled) s

/-- RX_OTHER (41_receive.md R143): discarded, IDLE_NO_DATA. -/
def execRxOther (_byte : Byte) (s : State) : Host.Outcome State Fault Refusal :=
  atControl .rx1 (fun e => e.complete .idleNoData) s

/-- ACK (42_transmit.md R174): the frame follows, its length byte first. -/
def execAck (s : State) : Host.Outcome State Fault Refusal :=
  atControl .tx3 (fun e => { e with seq := .tx4 }) s

/-- TX_OTHER (42_transmit.md R173): consumed, ACK_TIMEOUT, PHASE unchanged. -/
def execTxOther (_byte : Byte) (s : State) : Host.Outcome State Fault Refusal :=
  atControl .tx3 (fun e => e.complete .ackTimeout) s

end Sys2Proof.Machine
end

