-- ==== Sys2Proof/Machine/Dispatch.lean ====
section
/-! DEFINITION. Which meaning each instruction has: one arm per constructor. -/

namespace Sys2Proof.Machine

-- The meaning of an instruction at the acting endpoint.
def exec (i : Instr) (s : State) : Host.Outcome State Fault Refusal :=
  match i with
  -- host commands (30_encoding.md R91, R92)
  | .work => Sys2Proof.Machine.execWork s
  | .setTimeout => Sys2Proof.Machine.execSetTimeout s
  | .setPhase => Sys2Proof.Machine.execSetPhase s
  | .reserved00 => Sys2Proof.Machine.execReserved00 s
  | .reserved04 low => Sys2Proof.Machine.execReserved04 low s
  | .reserved08 low => Sys2Proof.Machine.execReserved08 low s
  | .reserved10 low => Sys2Proof.Machine.execReserved10 low s
  | .reserved20 low => Sys2Proof.Machine.execReserved20 low s
  | .reserved40 low => Sys2Proof.Machine.execReserved40 low s
  | .reserved80 low => Sys2Proof.Machine.execReserved80 low s
  -- wire bytes read as control (R100, R101)
  | .enq => Sys2Proof.Machine.execEnq s
  | .can => Sys2Proof.Machine.execCan s
  | .rxOther byte => Sys2Proof.Machine.execRxOther byte s
  | .ack => Sys2Proof.Machine.execAck s
  | .txOther byte => Sys2Proof.Machine.execTxOther byte s
  -- control bytes sent (R102)
  | .sendCan => Sys2Proof.Machine.execSendCan s
  | .sendEnq => Sys2Proof.Machine.execSendEnq s
  | .sendAck => Sys2Proof.Machine.execSendAck s

end Sys2Proof.Machine
end

