-- ==== Sys2Proof/Machine/HostPort.lean ====
section
/-! DEFINITION. The host's accesses to the register block and the windows (20_memory.md R61 to R68). The write of CMD is
not here: it is a command word and is decoded (Fetch.lean). -/

namespace Sys2Proof.Machine

/-- The physical address of the block's offset `off` (R61, `HOST_BASE`). -/
def Endpoint.hostAddr (e : Endpoint) (off : BitVec 10) : Nat := e.params.hostBase + off.toNat

/-- The offset in the block at a physical address, if the address is one of the block's (R61). -/
def Endpoint.offset? (e : Endpoint) (addr : Nat) : Option (BitVec 10) :=
  if e.params.hostBase ≤ addr ∧ addr < e.params.hostBase + Config.blockSize then
    some (BitVec.ofNat 10 (addr - e.params.hostBase))
  else none

/-- Bytes of an access (R62). -/
def Width.bytes : Width → Nat
  | .w1 => 1
  | .w2 => 2
  | .w4 => 4

/-- The 32-bit value of the register at word `k` of the block, its current value (10_state.md R32 to R38): CMD reads 0
(R33). -/
def Endpoint.regWord (e : Endpoint) (k : Nat) : Word :=
  if k = Config.offArg.toNat / 4 then e.arg
  else if k = Config.offStatus.toNat / 4 then e.statusWord
  else if k = Config.offPhase.toNat / 4 then e.phaseWord
  else if k = Config.offTimeout.toNat / 4 then e.timeout
  else if k = Config.offOutLen.toNat / 4 then e.outLen.setWidth 32
  else if k = Config.offRxLen.toNat / 4 then e.rxLen.setWidth 32
  else 0

/-- What read number `draw` sees at a byte of RX_LEN or RX_DATA that holds `b`: a draw while BUSY = 1 (20_memory.md R68;
log 7). -/
def Endpoint.resultByte (e : Endpoint) (draw offset : Nat) (b : Byte) : Byte :=
  if e.busy then Config.busyByte draw offset else b

/-- The byte at host offset `o`, as read number `draw` sees it (R61, R62). -/
def Endpoint.hostByte (e : Endpoint) (draw o : Nat) : Byte :=
  if o < Config.offRxLen.toNat then byteOf (e.regWord (o / 4)) (o % 4)
  else if o < Config.regsEnd then e.resultByte draw o (byteOf (e.regWord (o / 4)) (o % 4))
  else if o < Config.txBase then 0
  else if o < Config.rxBase then e.txByte (o - Config.txBase)
  else if o < Config.rxEnd then e.resultByte draw o (e.rxByte (o - Config.rxBase))
  else 0

/-- Natural alignment (R66). -/
def aligned (addr : BitVec 10) (n : Width) : Bool := addr.toNat % n.bytes == 0

/-- `MemRead(addr, n)` (R62): little-endian, 0 where misaligned. -/
def Endpoint.memRead (e : Endpoint) (draw : Nat) (addr : BitVec 10) (n : Width) : Word :=
  if aligned addr n then leWord (fun k => e.hostByte draw (addr.toNat + k)) n.bytes else 0

/-- `MemWrite(addr, n, v)` at any place but CMD (R63): registers by an aligned 4-byte access, TX_DATA by naturally aligned
ones, ignored while BUSY = 1, ignored everywhere else (10_state.md R34, R37, R39, R41). -/
def Endpoint.memWrite (e : Endpoint) (addr : BitVec 10) (n : Width) (v : Word) : Endpoint :=
  if e.busy then e
  else if addr = Config.offArg ∧ n = .w4 then { e with arg := v }
  else if addr = Config.offOutLen ∧ n = .w4 then { e with outLen := byteOf v 0 }
  else if Config.txBase ≤ addr.toNat ∧ addr.toNat < Config.rxBase ∧ aligned addr n then
    { e with txData := e.txData.copyIn (addr.toNat - Config.txBase) (byteOf v) n.bytes }
  else e

/-- A host read: the value goes to the host; nothing of the controller changes (R67). The read takes one number of the
free values' counter (log 7, log 12). -/
def State.hostRead (s : State) (addr : BitVec 10) (n : Width) : State :=
  { s.setCur { s.cur with rdata := s.cur.memRead s.draws addr n } with draws := s.draws + 1 }

/-- A host write at any place but CMD. -/
def State.hostWrite (s : State) (addr : BitVec 10) (n : Width) (v : Word) : State :=
  s.setCur (s.cur.memWrite addr n v)

end Sys2Proof.Machine
end

