-- ==== Sys2Proof/Machine/Fetch.lean ====
section
/-! DEFINITION. Where the machine finds its next instruction. The controller has no instruction memory (20_memory.md R60):
an instruction is a command word the host writes to CMD, a wire byte the engine reads as control, or a control byte it
sends, and the position tells the encoding space (30_encoding.md R99). -/

namespace Sys2Proof.Machine

/-- The command word of a host write: a 4-byte write to offset 0x000 and nothing else (20_memory.md R63(a), 10_state.md
R33). -/
def fetchWrite (addr : BitVec 10) (n : Width) (v : Word) : Option (Space × List Byte) :=
  if addr = Config.offCmd ∧ n = .w4 then some (.cmd, wordBytes v) else none

/-- The wire byte that the engine's adapter call treats as control, if its position is such a one: the byte at the head of
the inbound FIFO at RX1 and TX3 (R100, R101), the byte sent at TX1, TX2 and RX3 (R102). -/
def fetchEngine (e : Endpoint) : Option (Space × List Byte) :=
  match e.seq with
  | .rd .rx1 => e.inq.head?.map (fun b => (.rxFirst, [b]))
  | .rd .tx3 => e.inq.head?.map (fun b => (.ackWait, [b]))
  | .tx1 => some (.emit, [Config.can])
  | .tx2 => some (.emit, [Config.enq])
  | .rx3 => some (.emit, [Config.ack])
  | .idle => none
  | .w1 => none
  | .toggle => none
  | .latch => none
  | .store => none
  | .wb0 _ => none
  | .wb1 _ => none
  | .wb2 _ => none
  | .rd .rx4 => none
  | .rd .rx5 => none
  | .rd .rx7 => none
  | .rx8 => none
  | .tx4 => none
  | .tx5 => none
  | .tx6 => none
  | .tx7 => none

/-- Put an item where the very next step fetches it, at the endpoint `x`: a command word as the host's next access, a
wire byte at the head of the inbound FIFO with the engine at the position that reads it, a sent byte by the position
that sends it (log 16). -/
def placeItem (s : State) (x : Side) (sp : Space) (bytes : List Byte) : State :=
  let e := s.get x
  match sp with
  | .cmd =>
    { s with sched := .hostWrite x (e.hostAddr Config.offCmd) .w4 (leWord (fun k => bytes.getD k 0) 4) :: s.sched }
  | .rxFirst =>
    { s.put x { e with busy := true, phase := .receive, seq := .rd .rx1, inq := bytes ++ e.inq } with
      sched := .engine x :: s.sched }
  | .ackWait =>
    { s.put x { e with busy := true, phase := .transmit, seq := .rd .tx3, inq := bytes ++ e.inq } with
      sched := .engine x :: s.sched }
  | .emit =>
    let pos : Seq := if bytes = [Config.can] then .tx1 else if bytes = [Config.enq] then .tx2 else .rx3
    let ph : Phase := if bytes = [Config.ack] then .receive else .transmit
    { s.put x { e with busy := true, phase := ph, seq := pos } with sched := .engine x :: s.sched }

end Sys2Proof.Machine
end

