-- ==== Sys2Proof/Machine/Line.lean ====
section
/-! DEFINITION. The line's steps and the clock's (45_transport_adapter.md R224, R227, R228). The lossy steps are steps of
a Lossy line only; on an Ideal line, and on an empty outbound stream, there is no such step and nothing moves (log 18).
-/

namespace Sys2Proof.Machine

/-- The endpoint with `b` arriving at the end of its receive FIFO. -/
def Endpoint.arrive (e : Endpoint) (b : Byte) : Endpoint := { e with inq := e.inq ++ [b] }

/-- The line takes the oldest byte `x` wrote, if there is one, and gives the peer what `f` makes of it. -/
def State.takeOut (s : State) (x : Side) (f : Byte → Endpoint → Endpoint) : State :=
  match (s.get x).outq with
  | [] => s
  | b :: rest => (s.put x { s.get x with outq := rest }).put x.other (f b (s.get x.other))

/-- Delivery: the oldest byte of `OUT_x` is appended to the peer's `IN` (R227, Ideal). -/
def State.lineDeliver (s : State) (x : Side) : State := s.takeOut x (fun b e => e.arrive b)

/-- Loss: the oldest byte of `OUT_x` is removed (R227, Lossy). -/
def State.lineLose (s : State) (x : Side) : State :=
  match s.linkModel with
  | .ideal => s
  | .lossy => s.takeOut x (fun _ e => e)

/-- Corruption: the oldest byte of `OUT_x` is removed and `b` appended to the peer's `IN` in its place (R227, Lossy). With
`b` the byte itself this is delivery, a step the line has as well. -/
def State.lineCorrupt (s : State) (x : Side) (b : Byte) : State :=
  match s.linkModel with
  | .ideal => s
  | .lossy => s.takeOut x (fun _ e => e.arrive b)

/-- Noise: any byte is appended to `IN_x` (R227, Lossy). -/
def State.lineNoise (s : State) (x : Side) (b : Byte) : State :=
  match s.linkModel with
  | .ideal => s
  | .lossy => s.put x ((s.get x).arrive b)

/-- The clock of `x` advances: `T <- T + d` (R224). -/
def State.tick (s : State) (x : Side) (d : Nat) : State :=
  s.put x { s.get x with time := (s.get x).time + d }

end Sys2Proof.Machine
end

