-- ==== Sys2Proof/Machine/Events.lean ====
section
/-! DEFINITION. One step of one agent (10_state.md R20, 00_scope.md R18). -/

namespace Sys2Proof.Machine

/-- Decode a fetched item and run it; bytes the decoder rejects are refused by name (no fetch of this machine gives such
bytes). -/
def runItem (item : Space × List Byte) (s : State) : Host.Outcome State Fault Refusal :=
  match decode item.1 item.2 with
  | .ok i => exec i s
  | .error _ => .refused .undecodable

/-- The host's write: a command word is decoded and run, every other write goes to the host port (20_memory.md R63). -/
def stepWrite (s : State) (addr : BitVec 10) (n : Width) (v : Word) : Host.Outcome State Fault Refusal :=
  match fetchWrite addr n v with
  | some item => runItem item s
  | none => .next (s.hostWrite addr n v)

/-- The engine's adapter call: at a control position the byte is decoded and run, elsewhere it is the sequencer's own. -/
def stepCall (s : State) : Host.Outcome State Fault Refusal :=
  match fetchEngine s.cur with
  | some item => runItem item s
  | none => .next (s.setCur s.cur.engineStep)

/-- The engine's step: the local computation the line before left to do, then the adapter call (00_scope.md R18; log 4). -/
def stepEngine (s : State) : Host.Outcome State Fault Refusal := stepCall (s.setCur s.cur.settle)

/-- A host access at physical address `addr`: the block answers at its offset; an access outside the block is none of this
controller's and moves nothing (20_memory.md R61; log 20). -/
def stepHost (s : State) (addr : Nat) (access : BitVec 10 → Host.Outcome State Fault Refusal) :
    Host.Outcome State Fault Refusal :=
  match s.cur.offset? addr with
  | some off => access off
  | none => .next s

/-- One event. -/
def stepEvent (ev : Event) (s : State) : Host.Outcome State Fault Refusal :=
  match ev with
  | .hostRead x addr n => stepHost (s.atSide x) addr (fun off => .next ((s.atSide x).hostRead off n))
  | .hostWrite x addr n v => stepHost (s.atSide x) addr (fun off => stepWrite (s.atSide x) off n v)
  | .engine x => stepEngine (s.atSide x)
  | .clock x d => .next (s.tick x d)
  | .deliver x => .next (s.lineDeliver x)
  | .lose x => .next (s.lineLose x)
  | .corrupt x b => .next (s.lineCorrupt x b)
  | .noise x b => .next (s.lineNoise x b)
  | .reset x => .next (s.atSide x).resetCur

end Sys2Proof.Machine
end

