-- ==== Sys2Proof/Machine/Step.lean ====
section
/-! DEFINITION. The step of the machine: the next event of the schedule is taken from it and run. With no event to come no
agent moves (log 1). -/

namespace Sys2Proof.Machine

/-- One step. -/
def step (s : State) : Host.Outcome State Fault Refusal :=
  match s.sched with
  | [] => .next s
  | ev :: rest => stepEvent ev { s with sched := rest }

/-- `s` with the instruction of a table word placed where the next step fetches it (log 16). -/
def State.withFetchWord (s : State) (nbits w : Nat) : State :=
  placeItem s s.turn (tableSpace nbits w) (tableBytes nbits w)

end Sys2Proof.Machine
end

