-- ==== Sys2Proof/Safety.lean ====
section
/-! DEFINITION. What counts as a sound state of the link, and the words the statements are made of: runs of several
steps, the state a step starts from, and what an instruction leaves unchanged. -/

namespace Sys2Proof.Machine

/-- `k` steps, stopping at the first that does not answer a next state. -/
def runSteps : Nat → State → Host.Outcome State Fault Refusal
  | 0, s => .next s
  | k + 1, s =>
    match step s with
    | .next t => runSteps k t
    | .fault r => .fault r
    | .refused r => .refused r

/-- The state an agent of `x` acts on: the event is taken from the schedule, which goes on with `rest`. -/
def State.taken (s : State) (x : Side) (rest : List Event) : State := { s with sched := rest, turn := x }

/-- The next step, if it is the engine's at `x`, leaves `e` there and changes nothing else of the link. -/
def engineGives (s : State) (x : Side) (e : Endpoint) : Prop :=
  ∀ rest, s.sched = .engine x :: rest → step s = .next ((s.taken x rest).put x e)

/-- What holds while a wait of `call` runs, and at the read that ends it (41_receive.md R140, 42_transmit.md R170): the
path of the phase held, and in the payload and checksum waits the count and checksum of R43. -/
def Endpoint.waitOk (e : Endpoint) : Wait → Prop
  | .rx1 => e.phase = .receive
  | .rx4 => e.phase = .receive
  | .rx5 => e.phase = .receive ∧ e.i.toNat < e.len.toNat ∧ e.count.toNat = e.i.toNat
  | .rx7 => e.phase = .receive ∧ e.count.toNat = e.len.toNat ∧ e.cksum = xorFold e.frameByte e.len.toNat
  | .tx3 => e.phase = .transmit ∧ e.outLen ≠ 0

/-- What holds at each sequencer position. At a `TryReadByte` the FIFO holds a byte (45_transport_adapter.md R225). -/
def Endpoint.positionOk (e : Endpoint) : Prop :=
  match e.seq with
  | .idle => True
  | .w1 => e.params.policy = .autoToggle
  | .toggle => e.params.policy = .autoToggle
  | .latch => e.phase = .receive
  | .store => e.phase = .receive ∧ e.i.toNat < e.len.toNat ∧ e.count.toNat = e.i.toNat
  | .wb0 call => e.waitOk call
  | .wb1 call => e.waitOk call
  | .wb2 call => e.waitOk call
  | .rd call => e.waitOk call ∧ e.inq ≠ []
  | .rx3 => e.phase = .receive
  | .rx8 => e.phase = .receive ∧ e.count.toNat = e.len.toNat ∧ e.cksum = xorFold e.frameByte e.len.toNat
  | .tx1 => e.phase = .transmit ∧ e.outLen = 0
  | .tx2 => e.phase = .transmit ∧ e.outLen ≠ 0
  | .tx4 => e.phase = .transmit ∧ e.outLen ≠ 0
  | .tx5 => e.phase = .transmit ∧ e.i.toNat < e.outLength
  | .tx6 => e.phase = .transmit ∧ e.outLen ≠ 0
  | .tx7 => e.phase = .transmit ∧ e.outLen ≠ 0 ∧ e.cksum = xorFold e.txByte e.outLength

/-- The cells of a byte array lie below `bound`. -/
def Memory.below (m : Memory) (bound : Nat) : Prop := ∀ c ∈ m, c.1 < bound

/-- A sound endpoint. -/
structure Endpoint.Sound (e : Endpoint) : Prop where
  /-- The parameters are legal (00_scope.md R8). -/
  legal : e.params.legal
  /-- `TIMEOUT >= TIMEOUT_MIN_US` (10_state.md R25). -/
  floor : e.params.timeoutMinUs ≤ e.timeout
  /-- `SEQ = Idle` exactly when `BUSY = 0` (10_state.md R23). -/
  idle : e.busy = false ↔ e.seq = .idle
  /-- The byte arrays have their canonical form. -/
  form : e.frameBuf.wf = true ∧ e.txData.wf = true ∧ e.rxData.wf = true
  /-- Only FRAME_BUF[0..254] is ever written, well inside the buffer's 500 bytes (00_scope.md R7), the windows below 256 and
  255. -/
  bounds : e.frameBuf.below 255 ∧ e.txData.below 256 ∧ e.rxData.below 255
  /-- The running command is where its pseudocode can be. -/
  position : e.positionOk

/-- A sound link: both endpoints sound, their reset draws two different ones already numbered (10_state.md R46). -/
structure State.Sound (s : State) : Prop where
  a : s.a.Sound
  b : s.b.Sound
  draws : s.a.epoch ≠ s.b.epoch ∧ s.a.epoch < s.draws ∧ s.b.epoch < s.draws

/-- Every byte of the three arrays reads in `e'` as it reads in `e`. -/
def Endpoint.sameBytes (e e' : Endpoint) : Prop :=
  ∀ k, e'.frameByte k = e.frameByte k ∧ e'.txByte k = e.txByte k ∧ e'.rxByte k = e.rxByte k

/-- The fields that no instruction of the opcode table writes, the bytes of the arrays among them. -/
structure Endpoint.sameRest (e e' : Endpoint) : Prop where
  params : e'.params = e.params
  wd : e'.wd = e.wd
  count : e'.count = e.count
  len : e'.len = e.len
  cksum : e'.cksum = e.cksum
  wstart : e'.wstart = e.wstart
  i : e'.i = e.i
  t : e'.t = e.t
  r : e'.r = e.r
  arg : e'.arg = e.arg
  outLen : e'.outLen = e.outLen
  rxLen : e'.rxLen = e.rxLen
  bytes : e.sameBytes e'
  time : e'.time = e.time
  epoch : e'.epoch = e.epoch
  rdata : e'.rdata = e.rdata

/-- Everything of the link but the acting endpoint is unchanged. -/
def State.sameOutside (s t : State) : Prop :=
  t.turn = s.turn ∧ t.get s.turn.other = s.get s.turn.other ∧ t.linkModel = s.linkModel ∧ t.sched = s.sched ∧
    t.draws = s.draws

/-- The bytes of a frame's payload, `TX_DATA[0..n-1]` (42_transmit.md R174). -/
def Endpoint.payload (e : Endpoint) : List Byte := (List.range e.outLength).map e.txByte

/-- The event by which the host of `x` writes WORK to CMD, a 4-byte write. -/
def State.workEvent (s : State) (x : Side) : Event := .hostWrite x ((s.get x).hostAddr Config.offCmd) .w4 0x01

/-- One schedule of a whole frame exchange over a line that delivers every byte, the sender `x` and a payload of `n` bytes:
`x` sends ENQ, the peer answers ACK, `x` sends the frame, the line delivers its `n + 2` bytes, the peer receives them
(30_encoding.md R96). -/
def State.exchange (s : State) (x : Side) (n : Nat) : List Event :=
  let toAck : List Event :=
    [s.workEvent x, .engine x, .deliver x, s.workEvent x.other] ++
      List.replicate 4 (Event.engine x.other) ++ [Event.deliver x.other]
  let frame : List Event := List.replicate (n + 6) (.engine x)
  let line : List Event := List.replicate (n + 2) (.deliver x)
  toAck ++ frame ++ line ++ List.replicate (3 * n + 7) (Event.engine x.other)

end Sys2Proof.Machine
end

