-- ==== Sys2Proof/Certificates/Slice0/Obligations.lean ====
section
/-! DEFINITION. The statements for the provers. Each formalises rules of spec/, cited in its docstring; a statement that
rests on a choice of the model says so and names the log entry. -/

open Sys2Proof Sys2Proof.Machine

/-! Encoding. -/

/-- R91, R92, R100, R101, R102: the decoder reads every well-formed instruction back from its encoding, every operand at
every value. -/
def Obligations.DecodeEncodeRoundTrip : Prop :=
  ∀ i : Instr, i.wellFormed = true → decode (encode i).1 (encode i).2 = .ok i

/-- R90, R91, R92: "a decoder tells the command by `CMD[7:0]` alone": a word's four bytes decode, the bits [31:8] are ignored
and no bit of the code is lost; codes 0x01, 0x02, 0x03 are WORK, SET_TIMEOUT and SET_PHASE, and the meaning of every other
code is that of a reserved code. -/
def Obligations.CommandWordIsToldByItsLowByte : Prop :=
  ∀ w : Word,
    decode .cmd (wordBytes w) = .ok (decodeCmd w) ∧
    decodeCmd w = decodeCmd ((byteOf w 0).setWidth 32) ∧
    encode (decodeCmd w) = (.cmd, [byteOf w 0, 0, 0, 0]) ∧
    (decodeCmd w = .work ↔ byteOf w 0 = 0x01) ∧
    (decodeCmd w = .setTimeout ↔ byteOf w 0 = 0x02) ∧
    (decodeCmd w = .setPhase ↔ byteOf w 0 = 0x03) ∧
    (byteOf w 0 ≠ 0x01 → byteOf w 0 ≠ 0x02 → byteOf w 0 ≠ 0x03 →
      ∀ s : State, exec (decodeCmd w) s = accept badCommand s)

/-- R99, R100, R101: a wire byte's meaning depends on its position: as a first byte 0x05 is ENQ, 0x18 is CAN and each of
the other 254 values is discarded; after ENQ 0x06 is ACK and every other value ends the command. -/
def Obligations.WireByteMeaningDependsOnPosition : Prop :=
  ∀ b : Byte,
    (decode .rxFirst [b] = .ok .enq ↔ b = 0x05) ∧
    (decode .rxFirst [b] = .ok .can ↔ b = 0x18) ∧
    (b ≠ 0x05 → b ≠ 0x18 → decode .rxFirst [b] = .ok (.rxOther b)) ∧
    (decode .ackWait [b] = .ok .ack ↔ b = 0x06) ∧
    (b ≠ 0x06 → decode .ackWait [b] = .ok (.txOther b))

/-- R91, R92, R95, R103: some words of the tables, written out, and the instructions they stand for. -/
def Obligations.SpecWordsDecode : Prop :=
  decode .cmd [0x01, 0, 0, 0] = .ok .work ∧
  decode .cmd [0x03, 0x01, 0, 0] = .ok .setPhase ∧
  decode .cmd [0x07, 0, 0, 0] = .ok (.reserved04 3) ∧
  decode .cmd [0xFF, 0, 0, 0] = .ok (.reserved80 0x7F) ∧
  decode .rxFirst [0x05] = .ok .enq ∧
  decode .rxFirst [Config.stx] = .ok (.rxOther 0x02) ∧
  decode .ackWait [0x06] = .ok .ack ∧
  decode .emit [0x18] = .ok .sendCan

/-! A step runs the decoded instruction. -/

/-- R33, R61, R63(a), R120: a 4-byte host write to the block's offset 0x000 (at `HOST_BASE`) runs the command its word
decodes to, at that host's endpoint, with the event taken from the schedule; nothing else stands around it. -/
def Obligations.StepRunsTheCommandWritten : Prop :=
  ∀ (s : State) (x : Side) (v : Word) (rest : List Event),
    s.sched = .hostWrite x ((s.get x).hostAddr Config.offCmd) .w4 v :: rest →
    step s = exec (decodeCmd v) (s.taken x rest)

/-- R18, R23, R100, R101, R102: the engine's step first does the local computation the line before left to do (`settle`,
log 4); where the position then reads or sends a control byte, the step runs the instruction the byte decodes to, with the
event taken from the schedule; nothing else stands around it. -/
def Obligations.StepRunsTheWireByteDecoded : Prop :=
  ∀ (s : State) (x : Side) (rest : List Event) (item : Space × List Byte) (i : Instr),
    s.sched = .engine x :: rest → fetchEngine (s.get x).settle = some item → decode item.1 item.2 = .ok i →
    step s = exec i ((s.taken x rest).put x (s.get x).settle)

/-- R18, R100, R101, R102: the positions at which the engine reads or sends a control byte are RX1 and TX3 (with a byte in
the FIFO), TX1, TX2 and RX3, and the byte there is the FIFO's oldest, CAN, ENQ and ACK. A step begins with a local
computation only where W1, RX4 or RX5 left one (log 4), so at none of these positions. -/
def Obligations.ControlPositionsGiveTheirByte : Prop :=
  ∀ (e : Endpoint) (b : Byte) (rest : List Byte),
    (e.seq = .rd .rx1 → e.inq = b :: rest → fetchEngine e = some (.rxFirst, [b])) ∧
    (e.seq = .rd .tx3 → e.inq = b :: rest → fetchEngine e = some (.ackWait, [b])) ∧
    (e.seq = .tx1 → fetchEngine e = some (.emit, [0x18])) ∧
    (e.seq = .tx2 → fetchEngine e = some (.emit, [0x05])) ∧
    (e.seq = .rx3 → fetchEngine e = some (.emit, [0x06])) ∧
    (e.seq ≠ .toggle → e.seq ≠ .latch → e.seq ≠ .store → e.settle = e)

/-! Results of the commands. -/

/-- R120, R121, R122, R123: WORK, accepted while BUSY = 0, sets BUSY in that step and stands next at the watchdog's clock
read under AutoToggle, and under External at the first wait of the receive path, or at CAN or ENQ of the transmit path
by `OUT_LEN`; it changes nothing else. The step each write belongs to is the model's reading, log 4. -/
def Obligations.WorkIsAccepted : Prop :=
  ∀ s : State, s.cur.busy = false →
    exec .work s = .next (s.setCur { s.cur with
      busy := true
      seq := match s.cur.params.policy, s.cur.phase with
        | .autoToggle, _ => .w1
        | .external, .receive => .wb0 .rx1
        | .external, .transmit => if s.cur.outLen = 0 then .tx1 else .tx2 })

/-- R205, R206: SET_TIMEOUT stores `max(ARG, TIMEOUT_MIN_US)` in TIMEOUT, with no upper clamp, changes nothing else, and is
complete in the accepting step. -/
def Obligations.SetTimeoutClampsToTheFloor : Prop :=
  ∀ s : State, s.cur.busy = false →
    exec .setTimeout s = .next (s.setCur { s.cur with
      timeout := if s.cur.arg.toNat < s.cur.params.timeoutMinUs.toNat then s.cur.params.timeoutMinUs else s.cur.arg })

/-- R124: SET_PHASE stores `ARG[0]` in PHASE (0 Receive, 1 Transmit), under both policies, and changes nothing else: not WD,
not STATUS.CODE. -/
def Obligations.SetPhaseForcesThePhase : Prop :=
  ∀ s : State, s.cur.busy = false →
    exec .setPhase s = .next (s.setCur { s.cur with
      phase := if s.cur.arg.getLsbD 0 then .transmit else .receive })

/-- R125: every reserved code writes BAD_COMMAND to STATUS.CODE and nothing else. -/
def Obligations.ReservedCodesSetBadCommand : Prop :=
  ∀ (s : State) (i : Instr),
    (i = .reserved00 ∨ (∃ x, i = .reserved04 x) ∨ (∃ x, i = .reserved08 x) ∨ (∃ x, i = .reserved10 x) ∨
      (∃ x, i = .reserved20 x) ∨ (∃ x, i = .reserved40 x) ∨ (∃ x, i = .reserved80 x)) →
    s.cur.busy = false →
    exec i s = .next (s.setCur { s.cur with code := .badCommand })

/-! Results of the wire bytes. -/

/-- R144, R174: ENQ is consumed at RX1 and the ACK comes next; ACK is consumed at TX3 and the length byte comes next. -/
def Obligations.HandshakeBytesLeadOn : Prop :=
  ∀ (s : State) (b : Byte) (rest : List Byte), s.cur.inq = b :: rest →
    (s.cur.seq = .rd .rx1 → exec .enq s = .next (s.setCur { s.cur with inq := rest, seq := .rx3 })) ∧
    (s.cur.seq = .rd .tx3 → exec .ack s = .next (s.setCur { s.cur with inq := rest, seq := .tx4 }))

/-- R142: CAN is consumed, PHASE flips to Transmit, the status is PEER_CANCELLED; WD is not written and nothing is sent. -/
def Obligations.CanFlipsToTransmit : Prop :=
  ∀ (s : State) (b : Byte) (rest : List Byte), s.cur.seq = .rd .rx1 → s.cur.inq = b :: rest →
    exec .can s = .next (s.setCur { s.cur with
      inq := rest, phase := .transmit, code := .peerCancelled, busy := false, seq := .idle })

/-- R143: any other first byte is consumed and gives IDLE_NO_DATA; nothing else changes and nothing is sent. -/
def Obligations.OtherFirstByteIsDiscarded : Prop :=
  ∀ (s : State) (c b : Byte) (rest : List Byte), s.cur.seq = .rd .rx1 → s.cur.inq = b :: rest →
    exec (.rxOther c) s = .next (s.setCur { s.cur with
      inq := rest, code := .idleNoData, busy := false, seq := .idle })

/-- R173: any other byte read after ENQ is consumed and ends the command with ACK_TIMEOUT, PHASE unchanged, nothing more
sent. -/
def Obligations.OtherByteAfterEnqEndsTheCommand : Prop :=
  ∀ (s : State) (c b : Byte) (rest : List Byte), s.cur.seq = .rd .tx3 → s.cur.inq = b :: rest →
    exec (.txOther c) s = .next (s.setCur { s.cur with
      inq := rest, code := .ackTimeout, busy := false, seq := .idle })

/-- R171: with nothing to send CAN is sent, PHASE flips to Receive, the status is NOTHING_TO_SEND; no wait happens, no
inbound byte is consumed, WD is not written. -/
def Obligations.NothingToSendSendsCan : Prop :=
  ∀ s : State, s.cur.seq = .tx1 →
    exec .sendCan s = .next (s.setCur { s.cur with
      outq := s.cur.outq ++ [0x18], phase := .receive, code := .nothingToSend, busy := false, seq := .idle })

/-- R144, R172: ENQ is sent at TX2 and the wait for the ACK begins; the ACK is sent at RX3, before the length byte is
awaited. -/
def Obligations.HandshakeBytesAreSentThenAnswered : Prop :=
  ∀ s : State,
    (s.cur.seq = .tx2 →
      exec .sendEnq s = .next (s.setCur { s.cur with outq := s.cur.outq ++ [0x05], seq := .wb0 .tx3 })) ∧
    (s.cur.seq = .rx3 →
      exec .sendAck s = .next (s.setCur { s.cur with outq := s.cur.outq ++ [0x06], seq := .wb0 .rx4 }))

/-- R99, and the model's choice (log 13): away from its position, or with no byte to read, a wire byte has no such meaning
and the meaning stops by name. -/
def Obligations.WireBytesStopOffPosition : Prop :=
  ∀ (s : State) (c : Byte),
    (s.cur.seq ≠ .rd .rx1 → ∀ i ∈ [Instr.enq, .can, .rxOther c], exec i s = .fault .notAtPosition) ∧
    (s.cur.seq ≠ .rd .tx3 → ∀ i ∈ [Instr.ack, .txOther c], exec i s = .fault .notAtPosition) ∧
    (s.cur.seq = .rd .rx1 → s.cur.inq = [] → ∀ i ∈ [Instr.enq, .can, .rxOther c], exec i s = .fault .noByte) ∧
    (s.cur.seq = .rd .tx3 → s.cur.inq = [] → ∀ i ∈ [Instr.ack, .txOther c], exec i s = .fault .noByte) ∧
    (s.cur.seq ≠ .tx1 → exec .sendCan s = .fault .notAtPosition) ∧
    (s.cur.seq ≠ .tx2 → exec .sendEnq s = .fault .notAtPosition) ∧
    (s.cur.seq ≠ .rx3 → exec .sendAck s = .fault .notAtPosition)

/-! Frames. -/

/-- R42 ("No command writes any of them as an undocumented side effect"), R44: whatever instruction gives a next state, the
other endpoint, the link and every field that no instruction writes are unchanged, and every byte of FRAME_BUF, TX_DATA
and RX_DATA reads as before. -/
def Obligations.InstructionsLeaveTheRestUnchanged : Prop :=
  ∀ (i : Instr) (s t : State), exec i s = .next t → s.sameOutside t ∧ s.cur.sameRest t.cur

/-- R120, R124, R125, R205: of the fields an instruction may write, WORK writes BUSY and SEQ only, SET_TIMEOUT TIMEOUT only,
SET_PHASE PHASE only, a reserved code STATUS.CODE only; no command touches the byte streams. -/
def Obligations.CommandsWriteTheirFieldOnly : Prop :=
  ∀ (w : Word) (s t : State), exec (decodeCmd w) s = .next t →
    t.cur.inq = s.cur.inq ∧ t.cur.outq = s.cur.outq ∧
    (decodeCmd w ≠ .work → t.cur.busy = s.cur.busy ∧ t.cur.seq = s.cur.seq) ∧
    (decodeCmd w ≠ .setTimeout → t.cur.timeout = s.cur.timeout) ∧
    (decodeCmd w ≠ .setPhase → t.cur.phase = s.cur.phase) ∧
    (decodeCmd w = .work ∨ decodeCmd w = .setTimeout ∨ decodeCmd w = .setPhase → t.cur.code = s.cur.code)

/-- R142, R143, R144, R173, R174: a wire byte read as control is the one byte consumed, nothing is sent, TIMEOUT is
unchanged; PHASE is unchanged but for CAN, and ENQ and ACK leave STATUS unchanged. -/
def Obligations.WireReadsConsumeOneByte : Prop :=
  ∀ (i : Instr) (c : Byte) (s t : State), i ∈ [Instr.enq, .can, .rxOther c, .ack, .txOther c] → exec i s = .next t →
    (∃ b, s.cur.inq = b :: t.cur.inq) ∧ t.cur.outq = s.cur.outq ∧ t.cur.timeout = s.cur.timeout ∧
    (i ≠ .can → t.cur.phase = s.cur.phase) ∧
    (i = .enq ∨ i = .ack → t.cur.code = s.cur.code ∧ t.cur.busy = s.cur.busy)

/-- R102, R144, R171, R172: a control byte sent is one byte appended to the outbound stream, nothing is consumed, TIMEOUT is
unchanged; ENQ and ACK leave PHASE and STATUS unchanged. -/
def Obligations.WireEmitsAppendOneByte : Prop :=
  ∀ (i : Instr) (s t : State), i ∈ [Instr.sendCan, .sendEnq, .sendAck] → exec i s = .next t →
    t.cur.outq = s.cur.outq ++ (encode i).2 ∧ t.cur.inq = s.cur.inq ∧ t.cur.timeout = s.cur.timeout ∧
    (i ≠ .sendCan → t.cur.phase = s.cur.phase ∧ t.cur.code = s.cur.code ∧ t.cur.busy = s.cur.busy)

/-! The engine's other steps. -/

/-- R200, R204, R246, R280: a wait reads the clock into WSTART, then polls: a byte available ends it whatever the clock
reads; with none, a clock difference not greater than TIMEOUT (modulo 2^32) polls again, which is every difference where
TIMEOUT = 0xFFFFFFFF. -/
def Obligations.WaitPollsTheByteBeforeTheClock : Prop :=
  ∀ (s : State) (x : Side) (call : Wait),
    ((s.get x).seq = .wb0 call →
      engineGives s x { s.get x with wstart := BitVec.ofNat 32 (s.get x).time, seq := .wb1 call }) ∧
    ((s.get x).seq = .wb1 call → (s.get x).inq ≠ [] → engineGives s x { s.get x with seq := .rd call }) ∧
    ((s.get x).seq = .wb1 call → (s.get x).inq = [] → engineGives s x { s.get x with seq := .wb2 call }) ∧
    ((s.get x).seq = .wb2 call →
      (BitVec.ofNat 32 (s.get x).time - (s.get x).wstart).toNat ≤ (s.get x).timeout.toNat →
      engineGives s x { s.get x with seq := .wb1 call }) ∧
    ((s.get x).seq = .wb2 call → (s.get x).timeout = 0xFFFFFFFF →
      engineGives s x { s.get x with seq := .wb1 call })

/-- R141, R145, R146, R148, R172: a wait whose clock difference exceeds TIMEOUT ends the command with the status of its
position, in that step, and changes nothing else: PHASE, WD, the buffers, COUNT, LEN, CKSUM and the streams keep their
values. -/
def Obligations.WaitTimeoutEndsTheCommand : Prop :=
  ∀ (s : State) (x : Side) (call : Wait), (s.get x).seq = .wb2 call →
    (s.get x).timeout.toNat < (BitVec.ofNat 32 (s.get x).time - (s.get x).wstart).toNat →
    engineGives s x { s.get x with
      busy := false
      seq := .idle
      code := match call with
        | .rx1 => .idleNoData
        | .rx4 => .lenTimeout
        | .rx5 => .payloadTimeout
        | .rx7 => .checksumTimeout
        | .tx3 => .ackTimeout }

/-- R145, R152: the length byte is read; the next step latches it in LEN with COUNT 0, and begins the wait for the first
payload byte, or, where the length is 0, for the checksum byte with CKSUM = 0. The step each write belongs to is the
model's reading, log 4. -/
def Obligations.LengthByteIsLatched : Prop :=
  ∀ (s : State) (x : Side),
    (∀ (b : Byte) (rest : List Byte), (s.get x).seq = .rd .rx4 → (s.get x).inq = b :: rest →
      engineGives s x { s.get x with inq := rest, r := b, seq := .latch }) ∧
    ((s.get x).seq = .latch → (s.get x).r = 0 → engineGives s x { s.get x with
      len := 0, count := 0, i := 0, cksum := 0, wstart := BitVec.ofNat 32 (s.get x).time, seq := .wb1 .rx7 }) ∧
    ((s.get x).seq = .latch → (s.get x).r ≠ 0 → engineGives s x { s.get x with
      len := (s.get x).r, count := 0, i := 0, wstart := BitVec.ofNat 32 (s.get x).time, seq := .wb1 .rx5 })

/-- R146, R147: a payload byte is read; the next step stores it at `FRAME_BUF[i]` and at no other index, COUNT becomes
`i + 1`, and it begins the wait for the next payload byte, or, after the last one, for the checksum byte with CKSUM the XOR
fold of the LEN bytes. PHASE, STATUS, RX_DATA, RX_LEN and WD are unchanged. The step each write belongs to is the model's
reading, log 4. -/
def Obligations.PayloadByteIsStored : Prop :=
  (∀ (s : State) (x : Side) (b : Byte) (rest : List Byte), (s.get x).seq = .rd .rx5 → (s.get x).inq = b :: rest →
    engineGives s x { s.get x with inq := rest, r := b, seq := .store }) ∧
  ∀ (s : State) (x : Side) (later : List Event),
    s.sched = .engine x :: later → (s.get x).seq = .store → (s.get x).i.toNat < (s.get x).len.toNat →
    ∃ t, step s = .next t ∧ (t.get x).inq = (s.get x).inq ∧ (t.get x).len = (s.get x).len ∧
      (∀ k, (t.get x).frameByte k = if k = (s.get x).i.toNat then (s.get x).r else (s.get x).frameByte k) ∧
      (t.get x).count.toNat = (s.get x).i.toNat + 1 ∧ (t.get x).wstart = (s.get x).clock ∧
      (if (s.get x).i.toNat + 1 < (s.get x).len.toNat then
        (t.get x).seq = .wb1 .rx5 ∧ (t.get x).i.toNat = (s.get x).i.toNat + 1 ∧ (t.get x).cksum = (s.get x).cksum
      else
        (t.get x).seq = .wb1 .rx7 ∧ (t.get x).cksum = xorFold (t.get x).frameByte (s.get x).len.toNat) ∧
      (t.get x).phase = (s.get x).phase ∧ (t.get x).code = (s.get x).code ∧ (t.get x).busy = (s.get x).busy ∧
      (t.get x).rxData = (s.get x).rxData ∧ (t.get x).rxLen = (s.get x).rxLen ∧ (t.get x).wd = (s.get x).wd ∧
      (t.get x).outq = (s.get x).outq ∧ t.get x.other = s.get x.other

/-- R149: a checksum byte that differs from CKSUM ends the command with CHECKSUM_MISMATCH; RX_DATA, RX_LEN, PHASE and WD
are unchanged and nothing is sent. One that is equal leads to RX8. The step each write belongs to is the model's
reading, log 4. -/
def Obligations.ChecksumByteIsCompared : Prop :=
  ∀ (s : State) (x : Side) (r : Byte) (rest : List Byte), (s.get x).seq = .rd .rx7 → (s.get x).inq = r :: rest →
    (r ≠ (s.get x).cksum → engineGives s x { s.get x with
      inq := rest, code := .checksumMismatch, busy := false, seq := .idle }) ∧
    (r = (s.get x).cksum → engineGives s x { s.get x with inq := rest, seq := .rx8 })

/-- R150: on a match exactly LEN bytes are copied to `RX_DATA[0..LEN-1]`, the rest keep their values, `RX_LEN <- LEN`, PHASE
flips to Transmit, `WD <- Clock()`, the status is FRAME_APPLIED; nothing else changes. -/
def Obligations.FrameAppliedCopiesTheFrame : Prop :=
  ∀ (s : State) (x : Side) (later : List Event), s.sched = .engine x :: later → (s.get x).seq = .rx8 →
    ∃ m : Memory,
      step s = .next ((s.taken x later).put x { s.get x with
        rxData := m, rxLen := (s.get x).len, phase := .transmit, wd := BitVec.ofNat 32 (s.get x).time,
        code := .frameApplied, busy := false, seq := .idle }) ∧
      ∀ k, Endpoint.rxByte { s.get x with rxData := m } k =
        if k < (s.get x).len.toNat then (s.get x).frameByte k else (s.get x).rxByte k

/-- R122, R123, R245: under AutoToggle the watchdog reads the clock into `t`; the next step flips PHASE and sets WD to `t`
exactly when the difference `t - WD`, modulo 2^32, is greater than the interval, and the same WORK goes on in the phase then
held, with the first adapter call of its path in that step: the clock read of the wait in Receive phase, ENQ or CAN in
Transmit phase. The step each write belongs to is the model's reading, log 4. -/
def Obligations.WatchdogTogglesPastTheInterval : Prop :=
  ∀ (s : State) (x : Side),
    ((s.get x).seq = .w1 → engineGives s x { s.get x with t := BitVec.ofNat 32 (s.get x).time, seq := .toggle }) ∧
    ((s.get x).seq = .toggle →
      let past := (s.get x).params.toggleIntervalUs.toNat < ((s.get x).t - (s.get x).wd).toNat
      let ph : Phase := if past then (if (s.get x).phase = .receive then .transmit else .receive) else (s.get x).phase
      let e : Endpoint := { s.get x with phase := ph, wd := if past then (s.get x).t else (s.get x).wd }
      (ph = .receive → engineGives s x { e with wstart := BitVec.ofNat 32 (s.get x).time, seq := .wb1 .rx1 }) ∧
      (ph = .transmit → (s.get x).outLen ≠ 0 → engineGives s x { e with
        outq := (s.get x).outq ++ [0x05], seq := .wb0 .tx3 }) ∧
      (ph = .transmit → (s.get x).outLen = 0 → engineGives s x { e with
        outq := (s.get x).outq ++ [0x18], phase := .receive, code := .nothingToSend, busy := false, seq := .idle }))

/-- R174: the length byte, each payload byte in order and the XOR fold of the payload are passed to the transport, with no
byte read in between; STATUS and PHASE are unchanged. The step each write belongs to is the model's reading, log 4. -/
def Obligations.FrameBytesAreSentInOrder : Prop :=
  ∀ (s : State) (x : Side),
    ((s.get x).seq = .tx4 → (s.get x).outLen ≠ 0 → engineGives s x { s.get x with
      outq := (s.get x).outq ++ [(s.get x).outLen], i := 0, seq := .tx5 }) ∧
    ((s.get x).seq = .tx5 → (s.get x).i.toNat < (s.get x).outLen.toNat → engineGives s x { s.get x with
      outq := (s.get x).outq ++ [(s.get x).txByte (s.get x).i.toNat]
      i := (s.get x).i + 1
      seq := if (s.get x).i.toNat + 1 < (s.get x).outLen.toNat then .tx5 else .tx6 }) ∧
    ((s.get x).seq = .tx6 → engineGives s x { s.get x with
      outq := (s.get x).outq ++ [xorFold (s.get x).txByte (s.get x).outLen.toNat]
      cksum := xorFold (s.get x).txByte (s.get x).outLen.toNat
      seq := .tx7 })

/-- R175: then PHASE flips to Receive, `WD <- Clock()`, the status is FRAME_TRANSMITTED; nothing else changes. -/
def Obligations.FrameTransmittedFlipsToReceive : Prop :=
  ∀ (s : State) (x : Side), (s.get x).seq = .tx7 →
    engineGives s x { s.get x with
      phase := .receive, wd := BitVec.ofNat 32 (s.get x).time, code := .frameTransmitted, busy := false, seq := .idle }

/-- R258: "Between commands the engine is Idle and does nothing; all state persists". -/
def Obligations.IdleEngineDoesNothing : Prop :=
  ∀ (s : State) (x : Side), (s.get x).seq = .idle → engineGives s x (s.get x)

/-! The checksum. -/

/-- R190, R192: the fold of no bytes is 0x00 and the fold of `n + 1` bytes is that of the first `n` XOR the last; it depends
only on the `n` bytes, not on their order; each side's computation writes the fold of its own buffer to CKSUM and nothing else,
and does not depend on what CKSUM held before. -/
def Obligations.XorFoldDependsOnTheBytesAlone : Prop :=
  (∀ a : Nat → Byte, xorFold a 0 = 0x00) ∧
  (∀ (a : Nat → Byte) (n : Nat), xorFold a (n + 1) = xorFold a n ^^^ a n) ∧
  (∀ (a b : Nat → Byte) (n : Nat), (∀ k, k < n → a k = b k) → xorFold a n = xorFold b n) ∧
  (∀ l l' : List Byte, l.Perm l' →
    xorFold (fun k => l.getD k 0) l.length = xorFold (fun k => l'.getD k 0) l'.length) ∧
  (∀ e : Endpoint, e.foldFrame = { e with cksum := xorFold e.frameByte e.len.toNat } ∧
    e.foldTx = { e with cksum := xorFold e.txByte e.outLen.toNat }) ∧
  (∀ (e : Endpoint) (c : Byte), ({ e with cksum := c } : Endpoint).foldFrame = e.foldFrame ∧
    ({ e with cksum := c } : Endpoint).foldTx = e.foldTx)

/-- R193(b), and from it (a) and (c): a pattern of errors over the payload bytes (masks `m`) and the checksum byte (mask
`mc`) is detected, the received checksum differing from the fold of the received payload, exactly when the XOR of all
the masks is not 0. -/
def Obligations.ErrorsAreDetectedByTheirMasks : Prop :=
  ∀ (a m : Nat → Byte) (mc : Byte) (n : Nat),
    (xorFold a n ^^^ mc ≠ xorFold (fun k => a k ^^^ m k) n) ↔ (xorFold m n ^^^ mc ≠ 0)

/-! The host port. -/

/-- R32 to R38, R61, R62, R64, R93: an aligned 4-byte read of a register returns its current value, whatever runs, but for
RX_LEN while BUSY = 1; CMD reads 0, and STATUS shows the numeric code of R93. An aligned read of 1, 2 or 4 bytes of the
registers is little-endian: its byte `k` is the byte `k` places above the offset's place in the register's 32-bit value. -/
def Obligations.HostReadsTheRegisters : Prop :=
  ∀ (e : Endpoint) (draw : Nat),
    let code : Byte := match e.code with
      | .idleNoData => 0x00
      | .peerCancelled => 0x01
      | .ackTimeout => 0x02
      | .lenTimeout => 0x03
      | .payloadTimeout => 0x04
      | .checksumTimeout => 0x05
      | .checksumMismatch => 0x06
      | .frameApplied => 0x07
      | .frameTransmitted => 0x08
      | .nothingToSend => 0x09
      | .badCommand => 0xFE
      | .none => 0xFF
    let status : Word := code.setWidth 32 + (if e.busy then 0x100 else 0)
    let phase : Word := (if e.phase = .transmit then 1 else 0) + (if e.params.policy = .autoToggle then 2 else 0)
    let regs : List Word := [0, e.arg, status, phase, e.timeout, e.outLen.setWidth 32, e.rxLen.setWidth 32]
    e.memRead draw 0x000 .w4 = 0 ∧
    e.memRead draw 0x004 .w4 = e.arg ∧
    e.memRead draw 0x008 .w4 = status ∧
    e.memRead draw 0x00C .w4 = phase ∧
    e.memRead draw 0x010 .w4 = e.timeout ∧
    e.memRead draw 0x014 .w4 = e.outLen.setWidth 32 ∧
    (e.busy = false → e.memRead draw 0x018 .w4 = e.rxLen.setWidth 32) ∧
    ∀ (addr : BitVec 10) (n : Width) (k : Nat), addr.toNat % n.bytes = 0 → addr.toNat < 0x01C → k < 4 →
      (addr.toNat < 0x018 ∨ e.busy = false) →
      byteOf (e.memRead draw addr n) k =
        if k < n.bytes then byteOf (regs.getD (addr.toNat / 4) 0) (addr.toNat % 4 + k) else 0

/-- R41, R62, R66: a misaligned read returns 0, and so does every read of a reserved offset. -/
def Obligations.MisalignedAndReservedReadsReturnZero : Prop :=
  ∀ (e : Endpoint) (draw : Nat) (addr : BitVec 10) (n : Width),
    (addr.toNat % n.bytes ≠ 0 → e.memRead draw addr n = 0) ∧
    (0x01C ≤ addr.toNat ∧ addr.toNat < 0x100 ∨ 0x300 ≤ addr.toNat → e.memRead draw addr n = 0)

/-- R62, R64: an aligned read of a window is little-endian: byte `k` of the value is the window's byte at `addr + k`, the
bytes past the width 0; RX_DATA while BUSY = 0. -/
def Obligations.WindowReadsAreLittleEndian : Prop :=
  ∀ (e : Endpoint) (draw : Nat) (addr : BitVec 10) (n : Width) (k : Nat), addr.toNat % n.bytes = 0 → k < 4 →
    (0x100 ≤ addr.toNat → addr.toNat < 0x200 →
      byteOf (e.memRead draw addr n) k = if k < n.bytes then e.txByte (addr.toNat - 0x100 + k) else 0) ∧
    (0x200 ≤ addr.toNat → addr.toNat < 0x300 → e.busy = false →
      byteOf (e.memRead draw addr n) k = if k < n.bytes then e.rxByte (addr.toNat - 0x200 + k) else 0)

/-- R68: byte `k` of an aligned read of RX_DATA or RX_LEN while BUSY = 1, of any width, is the draw numbered by the read and
the byte's offset, the bytes past the width 0; the draw is the free value `Config.busyByte`, so this holds whatever it is.
That the draw has this form, and that all four bytes of RX_LEN are draws, RX_LEN[31:8] too, is the model's choice, log 7. -/
def Obligations.BusyResultReadsAreDraws : Prop :=
  ∀ (e : Endpoint) (draw : Nat) (addr : BitVec 10) (n : Width) (k : Nat), e.busy = true →
    addr.toNat % n.bytes = 0 → k < 4 →
    (0x200 ≤ addr.toNat ∧ addr.toNat < 0x300 ∨ 0x018 ≤ addr.toNat ∧ addr.toNat < 0x01C) →
    byteOf (e.memRead draw addr n) k = if k < n.bytes then Config.busyByte draw (addr.toNat + k) else 0

/-- R67: a host read has no side effect: the value goes to the host, the model's counter of draws advances (log 12), and
nothing else changes. -/
def Obligations.HostReadChangesNothing : Prop :=
  ∀ (s : State) (x : Side) (addr : BitVec 10) (n : Width) (rest : List Event),
    s.sched = .hostRead x ((s.get x).hostAddr addr) n :: rest →
    step s = .next { (s.taken x rest).put x { s.get x with rdata := (s.get x).memRead s.draws addr n } with
      draws := s.draws + 1 }

/-- R63(a), R34, R37: while BUSY = 0 an aligned 4-byte write of ARG stores all 32 bits and one of OUT_LEN its low 8 bits;
neither changes anything else. -/
def Obligations.RegisterWritesStore : Prop :=
  ∀ (s : State) (x : Side) (v : Word) (rest : List Event), (s.get x).busy = false →
    (s.sched = .hostWrite x ((s.get x).hostAddr 0x004) .w4 v :: rest →
      step s = .next ((s.taken x rest).put x { s.get x with arg := v })) ∧
    (s.sched = .hostWrite x ((s.get x).hostAddr 0x014) .w4 v :: rest →
      step s = .next ((s.taken x rest).put x { s.get x with outLen := v.setWidth 8 }))

/-- R63, R41, R66: a write of a register by a width below 4 or misaligned, a write of a read-only register, of RX_DATA or of
a reserved offset, and a misaligned write of TX_DATA change nothing. And, the model's choice (log 20), an access outside the
block's 1024 addresses from `HOST_BASE` on is none of this controller's and changes nothing. -/
def Obligations.OtherWritesAreIgnored : Prop :=
  (∀ (s : State) (x : Side) (addr : BitVec 10) (n : Width) (v : Word) (rest : List Event),
    s.sched = .hostWrite x ((s.get x).hostAddr addr) n v :: rest →
    (addr.toNat < 0x100 ∧ ¬ (n = .w4 ∧ (addr = 0x000 ∨ addr = 0x004 ∨ addr = 0x014)) ∨ 0x200 ≤ addr.toNat ∨
      addr.toNat % n.bytes ≠ 0) →
    step s = .next (s.taken x rest)) ∧
  (∀ (s : State) (x : Side) (addr : Nat) (n : Width) (v : Word) (rest : List Event),
    (addr < (s.get x).params.hostBase ∨ (s.get x).params.hostBase + 1024 ≤ addr) →
    (s.sched = .hostWrite x addr n v :: rest ∨ s.sched = .hostRead x addr n :: rest) →
    step s = .next (s.taken x rest))

/-- R63(b), R64: while BUSY = 0 an aligned write of TX_DATA stores its bytes little-endian from `addr` on and no other byte;
nothing else changes. -/
def Obligations.TxWindowWriteStoresItsBytes : Prop :=
  ∀ (s : State) (x : Side) (addr : BitVec 10) (n : Width) (v : Word) (rest : List Event),
    s.sched = .hostWrite x ((s.get x).hostAddr addr) n v :: rest → (s.get x).busy = false →
    0x100 ≤ addr.toNat → addr.toNat < 0x200 → addr.toNat % n.bytes = 0 →
    ∃ m : Memory,
      step s = .next ((s.taken x rest).put x { s.get x with txData := m }) ∧
      ∀ k, Endpoint.txByte { s.get x with txData := m } k =
        if addr.toNat - 0x100 ≤ k ∧ k < addr.toNat - 0x100 + n.bytes then byteOf v (k - (addr.toNat - 0x100))
        else (s.get x).txByte k

/-- R126, R276: every host write while BUSY = 1, of CMD, ARG, OUT_LEN, TX_DATA or any other place, is ignored. -/
def Obligations.BusyWritesAreLost : Prop :=
  ∀ (s : State) (x : Side) (addr : Nat) (n : Width) (v : Word) (rest : List Event),
    s.sched = .hostWrite x addr n v :: rest → (s.get x).busy = true → step s = .next (s.taken x rest)

/-! The line, the clock and reset. -/

/-- R227, R228, R230: delivery moves the oldest byte of one direction to the end of the peer's FIFO; a Lossy line may also
lose it, put any byte in its place, or, whatever is outbound, add a byte to a FIFO; nothing else changes. -/
def Obligations.LineStepsMoveTheOldestByte : Prop :=
  (∀ (s : State) (x : Side) (b c : Byte) (out : List Byte) (rest : List Event), (s.get x).outq = b :: out →
    (s.sched = .deliver x :: rest →
      step s = .next ((({ s with sched := rest }).put x { s.get x with outq := out }).put x.other
        { s.get x.other with inq := (s.get x.other).inq ++ [b] })) ∧
    (s.linkModel = .lossy → s.sched = .lose x :: rest →
      step s = .next (({ s with sched := rest }).put x { s.get x with outq := out })) ∧
    (s.linkModel = .lossy → s.sched = .corrupt x c :: rest →
      step s = .next ((({ s with sched := rest }).put x { s.get x with outq := out }).put x.other
        { s.get x.other with inq := (s.get x.other).inq ++ [c] }))) ∧
  (∀ (s : State) (x : Side) (c : Byte) (rest : List Event), s.linkModel = .lossy → s.sched = .noise x c :: rest →
    step s = .next (({ s with sched := rest }).put x { s.get x with inq := (s.get x).inq ++ [c] }))

/-- R225, R226: what an endpoint's inbound FIFO gains in a step is one byte at its end, from the line: the oldest byte the
peer wrote, or what a Lossy line makes of it or adds; what it loses is its oldest byte, taken by that endpoint's own engine. So
the bytes an endpoint writes never enter its own FIFO. -/
def Obligations.InboundFifoChangesOneWay : Prop :=
  ∀ (s t : State) (x : Side), step s = .next t →
    (t.get x).inq = (s.get x).inq ∨
    (∃ b rest, (t.get x).inq = (s.get x).inq ++ [b] ∧
      (s.sched = .deliver x.other :: rest ∧ (s.get x.other).outq.head? = some b ∨
       s.linkModel = .lossy ∧ s.sched = .corrupt x.other b :: rest ∨
       s.linkModel = .lossy ∧ s.sched = .noise x b :: rest)) ∨
    (∃ b rest, (s.get x).inq = b :: (t.get x).inq ∧ s.sched = .engine x :: rest)

/-- R224: `Clock()` reads `T mod 2^32`, and a clock step adds to `T` and changes nothing else. -/
def Obligations.ClockAdvancesAndWraps : Prop :=
  ∀ (s : State) (x : Side) (d : Nat) (rest : List Event), s.sched = .clock x d :: rest →
    (s.get x).clock.toNat = (s.get x).time % 2 ^ 32 ∧
    step s = .next (({ s with sched := rest }).put x { s.get x with time := (s.get x).time + d })

/-- R45, R270, R272: reset gives every field of the controller its reset value, whatever runs: no status is kept, the buffers'
bytes become draws of this reset (log 6), and the FIFOs and the clock are untouched. RX_LEN = 0 and the new draw of RX_DATA
follow R45 against the vector Z2 (log 17), and PHASE is the instance's one INIT_PHASE at every reset (log 23): both are the
model's readings. WSTART, `i` and the pseudocode's `t` and `r` are left out: the spec gives them no value (log 8). -/
def Obligations.ResetSetsEveryField : Prop :=
  ∀ (s : State) (x : Side) (rest : List Event), s.sched = .reset x :: rest →
    ∃ t, step s = .next t ∧
      (t.get x).phase = (s.get x).params.initPhase ∧ (t.get x).timeout = (s.get x).params.timeoutMinUs ∧
      (t.get x).wd = BitVec.ofNat 32 (s.get x).time ∧ (t.get x).count = 0 ∧ (t.get x).len = 0 ∧
      (t.get x).cksum = 0 ∧ (t.get x).seq = .idle ∧ Status.value (t.get x).code = 0xFF ∧ (t.get x).busy = false ∧
      (t.get x).arg = 0 ∧ (t.get x).outLen = 0 ∧ (t.get x).rxLen = 0 ∧
      (∀ k, (t.get x).frameByte k = Config.resetByte s.draws .frameBuf k ∧
        (t.get x).txByte k = Config.resetByte s.draws .txData k ∧
        (t.get x).rxByte k = Config.resetByte s.draws .rxData k) ∧
      (t.get x).inq = (s.get x).inq ∧ (t.get x).outq = (s.get x).outq ∧ (t.get x).time = (s.get x).time ∧
      (t.get x).params = (s.get x).params ∧ t.get x.other = s.get x.other ∧ t.linkModel = s.linkModel

/-- R271: after reset the engine is Idle, PHASE is INIT_PHASE, TIMEOUT is TIMEOUT_RESET_US, and the first command the host
writes is accepted. -/
def Obligations.ResetStateIsIdle : Prop :=
  ∀ x : Side, (State.reset.get x).seq = .idle ∧ (State.reset.get x).busy = false ∧
    (State.reset.get x).phase = (State.reset.get x).params.initPhase ∧
    (State.reset.get x).timeout = (State.reset.get x).params.timeoutResetUs ∧
    (State.reset.get x).timeout = 5000 ∧
    ∃ t, exec .work (State.reset.atSide x) = .next t ∧ (t.get x).busy = true

/-! Rules of the whole machine. -/

/-- R240: the controller has no exception: every step answers a next state, in every state. -/
def Obligations.EveryStepAnswersNext : Prop :=
  ∀ s : State, ∃ t, step s = .next t

/-- R7, R23, R25, R43, R45, R225: every step keeps a sound link sound: TIMEOUT at or above the floor, Idle exactly while
BUSY = 0, the byte arrays canonical and within their bounds, the count and the checksum right at each position, a byte
present at every read. -/
def Obligations.EveryStepKeepsTheLinkSound : Prop :=
  ∀ s t : State, s.Sound → step s = .next t → t.Sound

/-- R43, R45: the link is sound at reset. -/
def Obligations.ResetIsSound : Prop := State.reset.Sound

/-- R127, R128: every change of PHASE in a step that is no reset is one of the table's: SET_PHASE with the value of `ARG[0]`;
FRAME_APPLIED and FRAME_TRANSMITTED, which refresh WD; PEER_CANCELLED and NOTHING_TO_SEND, which leave it; or the
watchdog's toggle, under AutoToggle only, which sets it to the clock value read at W1. -/
def Obligations.PhaseChangesOnlyAsTheTableSays : Prop :=
  ∀ (s t : State) (x : Side), s.Sound → step s = .next t → (t.get x).phase ≠ (s.get x).phase →
    (∃ rest, s.sched = .reset x :: rest) ∨
    (∃ v rest, s.sched = .hostWrite x ((s.get x).hostAddr Config.offCmd) .w4 v :: rest ∧ decodeCmd v = .setPhase ∧
      (t.get x).phase = (s.get x).requestedPhase ∧ (t.get x).wd = (s.get x).wd) ∨
    (∃ rest, s.sched = .engine x :: rest ∧
      ((s.get x).phase = .receive ∧ (t.get x).code = .frameApplied ∧ (t.get x).busy = false ∧
          (t.get x).wd = (s.get x).clock ∨
       (s.get x).phase = .receive ∧ (t.get x).code = .peerCancelled ∧ (t.get x).busy = false ∧
          (t.get x).wd = (s.get x).wd ∨
       (s.get x).phase = .transmit ∧ (t.get x).code = .frameTransmitted ∧ (t.get x).busy = false ∧
          (t.get x).wd = (s.get x).clock ∨
       (s.get x).phase = .transmit ∧ (t.get x).code = .nothingToSend ∧ (t.get x).busy = false ∧
          (t.get x).wd = (s.get x).wd ∨
       (s.get x).params.policy = .autoToggle ∧ (s.get x).seq = .toggle ∧ (t.get x).wd = (s.get x).t ∧
          (s.get x).params.toggleIntervalUs.toNat < ((s.get x).t - (s.get x).wd).toNat))

/-- R151: RX_DATA and RX_LEN change only in a step that completes with FRAME_APPLIED (or a reset): no partial frame is ever
exposed. -/
def Obligations.NoPartialFrameIsExposed : Prop :=
  ∀ (s t : State) (x : Side), step s = .next t →
    ((t.get x).rxData ≠ (s.get x).rxData ∨ (t.get x).rxLen ≠ (s.get x).rxLen) →
    (∃ rest, s.sched = .reset x :: rest) ∨
    (∃ rest, s.sched = .engine x :: rest ∧ (s.get x).seq = .rx8 ∧ (t.get x).code = .frameApplied ∧
      (t.get x).busy = false ∧ (t.get x).rxLen = (s.get x).len)

/-- R102: what an endpoint's outbound stream gains in a step is one byte, sent by its own engine while a WORK runs: ACK in
Receive phase; ENQ or CAN in Transmit phase; LEN, a payload byte or the checksum in Transmit phase after the ACK was read.
The phase and the position are those the step has when it sends, its local computation done (`settle`, log 4). -/
def Obligations.BytesAreSentOnlyByWork : Prop :=
  ∀ (s t : State) (x : Side), s.Sound → step s = .next t → (s.get x).outq.length < (t.get x).outq.length →
    let e := (s.get x).settle
    (∃ rest, s.sched = .engine x :: rest) ∧ (s.get x).busy = true ∧
    ∃ b, (t.get x).outq = (s.get x).outq ++ [b] ∧
      (e.phase = .receive ∧ e.seq = .rx3 ∧ b = 0x06 ∨
       e.phase = .transmit ∧ e.seq = .tx1 ∧ b = 0x18 ∨
       e.phase = .transmit ∧ e.seq = .tx2 ∧ b = 0x05 ∨
       e.phase = .transmit ∧ e.seq = .tx4 ∧ b = (s.get x).outLen ∨
       e.phase = .transmit ∧ e.seq = .tx5 ∧ b = (s.get x).txByte (s.get x).i.toNat ∨
       e.phase = .transmit ∧ e.seq = .tx6 ∧ b = xorFold (s.get x).txByte (s.get x).outLen.toNat)

/-- R44: ARG, OUT_LEN and TX_DATA are written only by the host and only while BUSY = 0 (or cleared by a reset), so a running
WORK reads stable values; the fields the engine owns are written only by the engine's steps, a command the host writes to CMD
among them (or by a reset). -/
def Obligations.HostAndEngineOwnTheirFields : Prop :=
  ∀ (s t : State) (x : Side), step s = .next t → (∀ rest, s.sched ≠ .reset x :: rest) →
    ((s.get x).busy = true ∨ (∀ addr n v rest, s.sched ≠ .hostWrite x addr n v :: rest) →
      (t.get x).arg = (s.get x).arg ∧ (t.get x).outLen = (s.get x).outLen ∧ (t.get x).txData = (s.get x).txData) ∧
    ((∀ rest, s.sched ≠ .engine x :: rest) →
        (∀ v rest, s.sched ≠ .hostWrite x ((s.get x).hostAddr Config.offCmd) .w4 v :: rest) →
      (t.get x).phase = (s.get x).phase ∧ (t.get x).wd = (s.get x).wd ∧
      (t.get x).frameBuf = (s.get x).frameBuf ∧ (t.get x).count = (s.get x).count ∧
      (t.get x).len = (s.get x).len ∧ (t.get x).cksum = (s.get x).cksum ∧ (t.get x).timeout = (s.get x).timeout ∧
      (t.get x).rxLen = (s.get x).rxLen ∧ (t.get x).rxData = (s.get x).rxData ∧ (t.get x).seq = (s.get x).seq ∧
      (t.get x).code = (s.get x).code ∧ (t.get x).busy = (s.get x).busy)

/-- R254: "The endpoints share no state; the only thing between them is the line": a step of the host, the engine, the clock
or the reset of one endpoint leaves the other as it is. -/
def Obligations.EndpointsShareOnlyTheLine : Prop :=
  ∀ (s t : State) (x : Side) (ev : Event) (rest : List Event), s.sched = ev :: rest → step s = .next t →
    (ev = .engine x ∨ (∃ addr n, ev = .hostRead x addr n) ∨ (∃ addr n v, ev = .hostWrite x addr n v) ∨
      (∃ d, ev = .clock x d) ∨ ev = .reset x) →
    t.get x.other = s.get x.other

/-- R8, R11, R12, R14, R21: the parameters are "fixed for the life of an instance": no step changes them. -/
def Obligations.ParametersNeverChange : Prop :=
  ∀ (s t : State), step s = .next t →
    t.a.params = s.a.params ∧ t.b.params = s.b.params ∧ t.linkModel = s.linkModel

/-! Whole exchanges. -/

/-- R96, R121, R140, R149, R150, R153: a WORK in Receive phase whose FIFO holds ENQ, a length, that many payload bytes and a
checksum byte sends the one ACK, consumes exactly those bytes, and ends with FRAME_APPLIED and the payload in RX_DATA if
the checksum is the XOR fold of the payload, and with CHECKSUM_MISMATCH, PHASE, WD, RX_DATA and RX_LEN unchanged, if
not. -/
def Obligations.ReceiveAttemptEndsAsTheChecksumSays : Prop :=
  ∀ (s : State) (x : Side) (n ck : Byte) (data rest : List Byte) (later : List Event),
    data.length = n.toNat → (s.get x).busy = false → (s.get x).params.policy = .external →
    (s.get x).phase = .receive → (s.get x).inq = 0x05 :: n :: (data ++ ck :: rest) →
    s.sched = s.workEvent x :: (List.replicate (3 * n.toNat + 11) (.engine x) ++ later) →
    ∃ t, runSteps (3 * n.toNat + 12) s = .next t ∧ t.sched = later ∧ t.get x.other = s.get x.other ∧
      (t.get x).busy = false ∧ (t.get x).inq = rest ∧ (t.get x).outq = (s.get x).outq ++ [0x06] ∧
      (if ck = xorFold (fun k => data.getD k 0) n.toNat then
        (t.get x).code = .frameApplied ∧ (t.get x).rxLen = n ∧ (t.get x).phase = .transmit ∧
        (t.get x).wd = (s.get x).clock ∧
        ∀ k, (t.get x).rxByte k = if k < n.toNat then data.getD k 0 else (s.get x).rxByte k
      else
        (t.get x).code = .checksumMismatch ∧ (t.get x).rxLen = (s.get x).rxLen ∧ (t.get x).phase = .receive ∧
        (t.get x).wd = (s.get x).wd ∧ (t.get x).rxData = (s.get x).rxData)

/-- R96, R121, R170, R174, R175, R177: a WORK in Transmit phase with `OUT_LEN = n > 0` whose FIFO holds an ACK sends exactly
ENQ, the length, the n payload bytes in order and their XOR fold, consumes the one ACK, and ends with FRAME_TRANSMITTED,
in Receive phase, WD refreshed, RX_DATA and RX_LEN unchanged. -/
def Obligations.TransmitAttemptSendsTheFrame : Prop :=
  ∀ (s : State) (x : Side) (rest : List Byte) (later : List Event),
    (s.get x).outLen ≠ 0 → (s.get x).busy = false → (s.get x).params.policy = .external →
    (s.get x).phase = .transmit → (s.get x).inq = 0x06 :: rest →
    s.sched = s.workEvent x ::
      (List.replicate ((s.get x).outLen.toNat + 7) (.engine x) ++ later) →
    ∃ t, runSteps ((s.get x).outLen.toNat + 8) s = .next t ∧ t.sched = later ∧ t.get x.other = s.get x.other ∧
      (t.get x).busy = false ∧ (t.get x).code = .frameTransmitted ∧ (t.get x).phase = .receive ∧
      (t.get x).wd = (s.get x).clock ∧ (t.get x).inq = rest ∧
      (t.get x).outq = (s.get x).outq ++ [0x05, (s.get x).outLen] ++ (s.get x).payload ++
        [xorFold (s.get x).txByte (s.get x).outLen.toNat] ∧
      (t.get x).rxData = (s.get x).rxData ∧ (t.get x).rxLen = (s.get x).rxLen

/-- R43, R96, R176, R255 and the source's round trip (95_test_vectors.md V1.2): over a line that delivers every byte, a
Transmit-phase endpoint with `OUT_LEN = n > 0` and a Receive-phase endpoint, both idle with empty streams, exchange the
frame: the sender ends with FRAME_TRANSMITTED in Receive phase, the receiver with FRAME_APPLIED in Transmit phase,
`RX_LEN = n` and `RX_DATA[0..n-1]` equal to the sender's TX_DATA, whatever the n bytes are; the streams are empty again. -/
def Obligations.RoundTripDeliversThePayload : Prop :=
  ∀ (s : State) (x : Side) (later : List Event),
    let n := (s.get x).outLen.toNat
    n ≠ 0 → (s.get x).busy = false → (s.get x.other).busy = false →
    (s.get x).params.policy = .external → (s.get x.other).params.policy = .external →
    (s.get x).phase = .transmit → (s.get x.other).phase = .receive →
    (s.get x).inq = [] → (s.get x).outq = [] → (s.get x.other).inq = [] → (s.get x.other).outq = [] →
    s.sched = s.exchange x n ++ later →
    ∃ t, runSteps (5 * n + 24) s = .next t ∧ t.sched = later ∧
      (t.get x).busy = false ∧ (t.get x).code = .frameTransmitted ∧ (t.get x).phase = .receive ∧
      (t.get x.other).busy = false ∧ (t.get x.other).code = .frameApplied ∧ (t.get x.other).phase = .transmit ∧
      (t.get x.other).rxLen.toNat = n ∧ (∀ k, k < n → (t.get x.other).rxByte k = (s.get x).txByte k) ∧
      (t.get x).inq = [] ∧ (t.get x).outq = [] ∧ (t.get x.other).inq = [] ∧ (t.get x.other).outq = []
end

