-- ==== Sys2Proof/Laws/Exec.lean ====
section
/-! SUPPORT. Each instruction as its shared operation, one equation per constructor, so that a proof rewrites with it and
goes on with the operation's lemma (accept_cases, atControl_next, atEmit_next). -/

namespace Sys2Proof.Machine

theorem exec_work (s : State) :
    exec .work s = accept Endpoint.startWork s := rfl

theorem exec_setTimeout (s : State) :
    exec .setTimeout s = accept (fun e => { e with timeout := maxWord e.requestedTimeout e.params.timeoutMinUs }) s := rfl

theorem exec_setPhase (s : State) :
    exec .setPhase s = accept (fun e => { e with phase := e.requestedPhase }) s := rfl

theorem exec_reserved00 (s : State) :
    exec .reserved00 s = accept badCommand s := rfl

theorem exec_reserved04 (low : BitVec 2) (s : State) : exec (.reserved04 low) s = accept badCommand s := rfl

theorem exec_reserved08 (low : BitVec 3) (s : State) : exec (.reserved08 low) s = accept badCommand s := rfl

theorem exec_reserved10 (low : BitVec 4) (s : State) : exec (.reserved10 low) s = accept badCommand s := rfl

theorem exec_reserved20 (low : BitVec 5) (s : State) : exec (.reserved20 low) s = accept badCommand s := rfl

theorem exec_reserved40 (low : BitVec 6) (s : State) : exec (.reserved40 low) s = accept badCommand s := rfl

theorem exec_reserved80 (low : BitVec 7) (s : State) : exec (.reserved80 low) s = accept badCommand s := rfl

theorem exec_enq (s : State) :
    exec .enq s = atControl .rx1 (fun e => { e with seq := .rx3 }) s := rfl

theorem exec_can (s : State) :
    exec .can s = atControl .rx1 (fun e => { e with phase := .transmit }.complete .peerCancelled) s := rfl

theorem exec_rxOther (byte : Byte) (s : State) :
    exec (.rxOther byte) s = atControl .rx1 (fun e => e.complete .idleNoData) s := rfl

theorem exec_ack (s : State) :
    exec .ack s = atControl .tx3 (fun e => { e with seq := .tx4 }) s := rfl

theorem exec_txOther (byte : Byte) (s : State) :
    exec (.txOther byte) s = atControl .tx3 (fun e => e.complete .ackTimeout) s := rfl

theorem exec_sendCan (s : State) :
    exec .sendCan s = atEmit .tx1 Config.can (fun e => { e with phase := .receive }.complete .nothingToSend) s := rfl

theorem exec_sendEnq (s : State) :
    exec .sendEnq s = atEmit .tx2 Config.enq (fun e => { e with seq := .wb0 .tx3 }) s := rfl

theorem exec_sendAck (s : State) :
    exec .sendAck s = atEmit .rx3 Config.ack (fun e => { e with seq := .wb0 .rx4 }) s := rfl

end Sys2Proof.Machine
end

