-- ==== Sys2Proof/Laws/State.lean ====
section
/-! SUPPORT. The small lemmas of the state's updates: one per field per update, so that no proof unfolds a record update. -/

namespace Sys2Proof.Machine

/-! The two endpoints of a link. -/

@[simp] theorem Side.other_other (x : Side) : x.other.other = x := by cases x <;> rfl

@[simp] theorem Side.other_ne (x : Side) : x.other ≠ x := by cases x <;> decide

@[simp] theorem Side.ne_other (x : Side) : x ≠ x.other := by cases x <;> decide

theorem Side.eq_or_other (x y : Side) : y = x ∨ y = x.other := by cases x <;> cases y <;> decide

@[simp] theorem State.get_a (s : State) : s.get .a = s.a := rfl

@[simp] theorem State.get_b (s : State) : s.get .b = s.b := rfl

@[simp] theorem State.get_put (s : State) (x : Side) (e : Endpoint) : (s.put x e).get x = e := by cases x <;> rfl

@[simp] theorem State.get_put_other (s : State) (x : Side) (e : Endpoint) :
    (s.put x e).get x.other = s.get x.other := by cases x <;> rfl

@[simp] theorem State.get_other_put (s : State) (x : Side) (e : Endpoint) :
    (s.put x.other e).get x = s.get x := by cases x <;> rfl

@[simp] theorem State.put_get (s : State) (x : Side) : s.put x (s.get x) = s := by cases x <;> rfl

@[simp] theorem State.put_put (s : State) (x : Side) (e f : Endpoint) : (s.put x e).put x f = s.put x f := by
  cases x <;> rfl

@[simp] theorem State.put_linkModel (s : State) (x : Side) (e : Endpoint) : (s.put x e).linkModel = s.linkModel := by
  cases x <;> rfl

@[simp] theorem State.put_turn (s : State) (x : Side) (e : Endpoint) : (s.put x e).turn = s.turn := by cases x <;> rfl

@[simp] theorem State.put_sched (s : State) (x : Side) (e : Endpoint) : (s.put x e).sched = s.sched := by
  cases x <;> rfl

@[simp] theorem State.put_draws (s : State) (x : Side) (e : Endpoint) : (s.put x e).draws = s.draws := by
  cases x <;> rfl

@[simp] theorem State.get_turn (s : State) (x y : Side) : ({ s with turn := y } : State).get x = s.get x := by
  cases x <;> rfl

@[simp] theorem State.get_sched (s : State) (x : Side) (l : List Event) : ({ s with sched := l } : State).get x = s.get x := by
  cases x <;> rfl

@[simp] theorem State.get_draws (s : State) (x : Side) (n : Nat) : ({ s with draws := n } : State).get x = s.get x := by
  cases x <;> rfl

/-! The acting endpoint. -/

@[simp] theorem State.atSide_turn (s : State) (x : Side) : (s.atSide x).turn = x := rfl

@[simp] theorem State.atSide_get (s : State) (x y : Side) : (s.atSide x).get y = s.get y := by cases y <;> rfl

@[simp] theorem State.atSide_cur (s : State) (x : Side) : (s.atSide x).cur = s.get x := by cases x <;> rfl

@[simp] theorem State.atSide_linkModel (s : State) (x : Side) : (s.atSide x).linkModel = s.linkModel := rfl

@[simp] theorem State.atSide_sched (s : State) (x : Side) : (s.atSide x).sched = s.sched := rfl

@[simp] theorem State.atSide_draws (s : State) (x : Side) : (s.atSide x).draws = s.draws := rfl

@[simp] theorem State.setCur_cur (s : State) (e : Endpoint) : (s.setCur e).cur = e := by
  simp [State.setCur, State.cur]

@[simp] theorem State.setCur_get_other (s : State) (e : Endpoint) :
    (s.setCur e).get s.turn.other = s.get s.turn.other := by simp [State.setCur]

@[simp] theorem State.setCur_turn (s : State) (e : Endpoint) : (s.setCur e).turn = s.turn := by simp [State.setCur]

@[simp] theorem State.setCur_linkModel (s : State) (e : Endpoint) : (s.setCur e).linkModel = s.linkModel := by
  simp [State.setCur]

@[simp] theorem State.setCur_sched (s : State) (e : Endpoint) : (s.setCur e).sched = s.sched := by simp [State.setCur]

@[simp] theorem State.setCur_draws (s : State) (e : Endpoint) : (s.setCur e).draws = s.draws := by simp [State.setCur]

theorem State.atSide_setCur (s : State) (x : Side) (e : Endpoint) : (s.atSide x).setCur e = (s.atSide x).put x e := rfl

/-! `Endpoint.complete`. -/

@[simp] theorem Endpoint.complete_params (e : Endpoint) (c : Status) : (e.complete c).params = e.params := rfl

@[simp] theorem Endpoint.complete_phase (e : Endpoint) (c : Status) : (e.complete c).phase = e.phase := rfl

@[simp] theorem Endpoint.complete_timeout (e : Endpoint) (c : Status) : (e.complete c).timeout = e.timeout := rfl

@[simp] theorem Endpoint.complete_wd (e : Endpoint) (c : Status) : (e.complete c).wd = e.wd := rfl

@[simp] theorem Endpoint.complete_frameBuf (e : Endpoint) (c : Status) : (e.complete c).frameBuf = e.frameBuf := rfl

@[simp] theorem Endpoint.complete_count (e : Endpoint) (c : Status) : (e.complete c).count = e.count := rfl

@[simp] theorem Endpoint.complete_len (e : Endpoint) (c : Status) : (e.complete c).len = e.len := rfl

@[simp] theorem Endpoint.complete_cksum (e : Endpoint) (c : Status) : (e.complete c).cksum = e.cksum := rfl

@[simp] theorem Endpoint.complete_seq (e : Endpoint) (c : Status) : (e.complete c).seq = .idle := rfl

@[simp] theorem Endpoint.complete_wstart (e : Endpoint) (c : Status) : (e.complete c).wstart = e.wstart := rfl

@[simp] theorem Endpoint.complete_i (e : Endpoint) (c : Status) : (e.complete c).i = e.i := rfl

@[simp] theorem Endpoint.complete_t (e : Endpoint) (c : Status) : (e.complete c).t = e.t := rfl

@[simp] theorem Endpoint.complete_r (e : Endpoint) (c : Status) : (e.complete c).r = e.r := rfl

@[simp] theorem Endpoint.complete_code (e : Endpoint) (c : Status) : (e.complete c).code = c := rfl

@[simp] theorem Endpoint.complete_busy (e : Endpoint) (c : Status) : (e.complete c).busy = false := rfl

@[simp] theorem Endpoint.complete_arg (e : Endpoint) (c : Status) : (e.complete c).arg = e.arg := rfl

@[simp] theorem Endpoint.complete_outLen (e : Endpoint) (c : Status) : (e.complete c).outLen = e.outLen := rfl

@[simp] theorem Endpoint.complete_rxLen (e : Endpoint) (c : Status) : (e.complete c).rxLen = e.rxLen := rfl

@[simp] theorem Endpoint.complete_txData (e : Endpoint) (c : Status) : (e.complete c).txData = e.txData := rfl

@[simp] theorem Endpoint.complete_rxData (e : Endpoint) (c : Status) : (e.complete c).rxData = e.rxData := rfl

@[simp] theorem Endpoint.complete_inq (e : Endpoint) (c : Status) : (e.complete c).inq = e.inq := rfl

@[simp] theorem Endpoint.complete_outq (e : Endpoint) (c : Status) : (e.complete c).outq = e.outq := rfl

@[simp] theorem Endpoint.complete_time (e : Endpoint) (c : Status) : (e.complete c).time = e.time := rfl

@[simp] theorem Endpoint.complete_epoch (e : Endpoint) (c : Status) : (e.complete c).epoch = e.epoch := rfl

@[simp] theorem Endpoint.complete_rdata (e : Endpoint) (c : Status) : (e.complete c).rdata = e.rdata := rfl

/-! `Endpoint.writeByte`. -/

@[simp] theorem Endpoint.writeByte_params (e : Endpoint) (b : Byte) : (e.writeByte b).params = e.params := rfl

@[simp] theorem Endpoint.writeByte_phase (e : Endpoint) (b : Byte) : (e.writeByte b).phase = e.phase := rfl

@[simp] theorem Endpoint.writeByte_timeout (e : Endpoint) (b : Byte) : (e.writeByte b).timeout = e.timeout := rfl

@[simp] theorem Endpoint.writeByte_wd (e : Endpoint) (b : Byte) : (e.writeByte b).wd = e.wd := rfl

@[simp] theorem Endpoint.writeByte_frameBuf (e : Endpoint) (b : Byte) : (e.writeByte b).frameBuf = e.frameBuf := rfl

@[simp] theorem Endpoint.writeByte_count (e : Endpoint) (b : Byte) : (e.writeByte b).count = e.count := rfl

@[simp] theorem Endpoint.writeByte_len (e : Endpoint) (b : Byte) : (e.writeByte b).len = e.len := rfl

@[simp] theorem Endpoint.writeByte_cksum (e : Endpoint) (b : Byte) : (e.writeByte b).cksum = e.cksum := rfl

@[simp] theorem Endpoint.writeByte_seq (e : Endpoint) (b : Byte) : (e.writeByte b).seq = e.seq := rfl

@[simp] theorem Endpoint.writeByte_wstart (e : Endpoint) (b : Byte) : (e.writeByte b).wstart = e.wstart := rfl

@[simp] theorem Endpoint.writeByte_i (e : Endpoint) (b : Byte) : (e.writeByte b).i = e.i := rfl

@[simp] theorem Endpoint.writeByte_t (e : Endpoint) (b : Byte) : (e.writeByte b).t = e.t := rfl

@[simp] theorem Endpoint.writeByte_r (e : Endpoint) (b : Byte) : (e.writeByte b).r = e.r := rfl

@[simp] theorem Endpoint.writeByte_code (e : Endpoint) (b : Byte) : (e.writeByte b).code = e.code := rfl

@[simp] theorem Endpoint.writeByte_busy (e : Endpoint) (b : Byte) : (e.writeByte b).busy = e.busy := rfl

@[simp] theorem Endpoint.writeByte_arg (e : Endpoint) (b : Byte) : (e.writeByte b).arg = e.arg := rfl

@[simp] theorem Endpoint.writeByte_outLen (e : Endpoint) (b : Byte) : (e.writeByte b).outLen = e.outLen := rfl

@[simp] theorem Endpoint.writeByte_rxLen (e : Endpoint) (b : Byte) : (e.writeByte b).rxLen = e.rxLen := rfl

@[simp] theorem Endpoint.writeByte_txData (e : Endpoint) (b : Byte) : (e.writeByte b).txData = e.txData := rfl

@[simp] theorem Endpoint.writeByte_rxData (e : Endpoint) (b : Byte) : (e.writeByte b).rxData = e.rxData := rfl

@[simp] theorem Endpoint.writeByte_inq (e : Endpoint) (b : Byte) : (e.writeByte b).inq = e.inq := rfl

@[simp] theorem Endpoint.writeByte_outq (e : Endpoint) (b : Byte) : (e.writeByte b).outq = e.outq ++ [b] := rfl

@[simp] theorem Endpoint.writeByte_time (e : Endpoint) (b : Byte) : (e.writeByte b).time = e.time := rfl

@[simp] theorem Endpoint.writeByte_epoch (e : Endpoint) (b : Byte) : (e.writeByte b).epoch = e.epoch := rfl

@[simp] theorem Endpoint.writeByte_rdata (e : Endpoint) (b : Byte) : (e.writeByte b).rdata = e.rdata := rfl

/-! `Endpoint.arrive`. -/

@[simp] theorem Endpoint.arrive_params (e : Endpoint) (b : Byte) : (e.arrive b).params = e.params := rfl

@[simp] theorem Endpoint.arrive_phase (e : Endpoint) (b : Byte) : (e.arrive b).phase = e.phase := rfl

@[simp] theorem Endpoint.arrive_timeout (e : Endpoint) (b : Byte) : (e.arrive b).timeout = e.timeout := rfl

@[simp] theorem Endpoint.arrive_wd (e : Endpoint) (b : Byte) : (e.arrive b).wd = e.wd := rfl

@[simp] theorem Endpoint.arrive_frameBuf (e : Endpoint) (b : Byte) : (e.arrive b).frameBuf = e.frameBuf := rfl

@[simp] theorem Endpoint.arrive_count (e : Endpoint) (b : Byte) : (e.arrive b).count = e.count := rfl

@[simp] theorem Endpoint.arrive_len (e : Endpoint) (b : Byte) : (e.arrive b).len = e.len := rfl

@[simp] theorem Endpoint.arrive_cksum (e : Endpoint) (b : Byte) : (e.arrive b).cksum = e.cksum := rfl

@[simp] theorem Endpoint.arrive_seq (e : Endpoint) (b : Byte) : (e.arrive b).seq = e.seq := rfl

@[simp] theorem Endpoint.arrive_wstart (e : Endpoint) (b : Byte) : (e.arrive b).wstart = e.wstart := rfl

@[simp] theorem Endpoint.arrive_i (e : Endpoint) (b : Byte) : (e.arrive b).i = e.i := rfl

@[simp] theorem Endpoint.arrive_t (e : Endpoint) (b : Byte) : (e.arrive b).t = e.t := rfl

@[simp] theorem Endpoint.arrive_r (e : Endpoint) (b : Byte) : (e.arrive b).r = e.r := rfl

@[simp] theorem Endpoint.arrive_code (e : Endpoint) (b : Byte) : (e.arrive b).code = e.code := rfl

@[simp] theorem Endpoint.arrive_busy (e : Endpoint) (b : Byte) : (e.arrive b).busy = e.busy := rfl

@[simp] theorem Endpoint.arrive_arg (e : Endpoint) (b : Byte) : (e.arrive b).arg = e.arg := rfl

@[simp] theorem Endpoint.arrive_outLen (e : Endpoint) (b : Byte) : (e.arrive b).outLen = e.outLen := rfl

@[simp] theorem Endpoint.arrive_rxLen (e : Endpoint) (b : Byte) : (e.arrive b).rxLen = e.rxLen := rfl

@[simp] theorem Endpoint.arrive_txData (e : Endpoint) (b : Byte) : (e.arrive b).txData = e.txData := rfl

@[simp] theorem Endpoint.arrive_rxData (e : Endpoint) (b : Byte) : (e.arrive b).rxData = e.rxData := rfl

@[simp] theorem Endpoint.arrive_inq (e : Endpoint) (b : Byte) : (e.arrive b).inq = e.inq ++ [b] := rfl

@[simp] theorem Endpoint.arrive_outq (e : Endpoint) (b : Byte) : (e.arrive b).outq = e.outq := rfl

@[simp] theorem Endpoint.arrive_time (e : Endpoint) (b : Byte) : (e.arrive b).time = e.time := rfl

@[simp] theorem Endpoint.arrive_epoch (e : Endpoint) (b : Byte) : (e.arrive b).epoch = e.epoch := rfl

@[simp] theorem Endpoint.arrive_rdata (e : Endpoint) (b : Byte) : (e.arrive b).rdata = e.rdata := rfl

/-! `Endpoint.storeFrame`. -/

@[simp] theorem Endpoint.storeFrame_params (e : Endpoint) (k : Nat) (b : Byte) : (e.storeFrame k b).params = e.params := by
  unfold Endpoint.storeFrame; split <;> rfl

@[simp] theorem Endpoint.storeFrame_phase (e : Endpoint) (k : Nat) (b : Byte) : (e.storeFrame k b).phase = e.phase := by
  unfold Endpoint.storeFrame; split <;> rfl

@[simp] theorem Endpoint.storeFrame_timeout (e : Endpoint) (k : Nat) (b : Byte) : (e.storeFrame k b).timeout = e.timeout := by
  unfold Endpoint.storeFrame; split <;> rfl

@[simp] theorem Endpoint.storeFrame_wd (e : Endpoint) (k : Nat) (b : Byte) : (e.storeFrame k b).wd = e.wd := by
  unfold Endpoint.storeFrame; split <;> rfl

@[simp] theorem Endpoint.storeFrame_count (e : Endpoint) (k : Nat) (b : Byte) : (e.storeFrame k b).count = e.count := by
  unfold Endpoint.storeFrame; split <;> rfl

@[simp] theorem Endpoint.storeFrame_len (e : Endpoint) (k : Nat) (b : Byte) : (e.storeFrame k b).len = e.len := by
  unfold Endpoint.storeFrame; split <;> rfl

@[simp] theorem Endpoint.storeFrame_cksum (e : Endpoint) (k : Nat) (b : Byte) : (e.storeFrame k b).cksum = e.cksum := by
  unfold Endpoint.storeFrame; split <;> rfl

@[simp] theorem Endpoint.storeFrame_seq (e : Endpoint) (k : Nat) (b : Byte) : (e.storeFrame k b).seq = e.seq := by
  unfold Endpoint.storeFrame; split <;> rfl

@[simp] theorem Endpoint.storeFrame_wstart (e : Endpoint) (k : Nat) (b : Byte) : (e.storeFrame k b).wstart = e.wstart := by
  unfold Endpoint.storeFrame; split <;> rfl

@[simp] theorem Endpoint.storeFrame_i (e : Endpoint) (k : Nat) (b : Byte) : (e.storeFrame k b).i = e.i := by
  unfold Endpoint.storeFrame; split <;> rfl

@[simp] theorem Endpoint.storeFrame_t (e : Endpoint) (k : Nat) (b : Byte) : (e.storeFrame k b).t = e.t := by
  unfold Endpoint.storeFrame; split <;> rfl

@[simp] theorem Endpoint.storeFrame_r (e : Endpoint) (k : Nat) (b : Byte) : (e.storeFrame k b).r = e.r := by
  unfold Endpoint.storeFrame; split <;> rfl

@[simp] theorem Endpoint.storeFrame_code (e : Endpoint) (k : Nat) (b : Byte) : (e.storeFrame k b).code = e.code := by
  unfold Endpoint.storeFrame; split <;> rfl

@[simp] theorem Endpoint.storeFrame_busy (e : Endpoint) (k : Nat) (b : Byte) : (e.storeFrame k b).busy = e.busy := by
  unfold Endpoint.storeFrame; split <;> rfl

@[simp] theorem Endpoint.storeFrame_arg (e : Endpoint) (k : Nat) (b : Byte) : (e.storeFrame k b).arg = e.arg := by
  unfold Endpoint.storeFrame; split <;> rfl

@[simp] theorem Endpoint.storeFrame_outLen (e : Endpoint) (k : Nat) (b : Byte) : (e.storeFrame k b).outLen = e.outLen := by
  unfold Endpoint.storeFrame; split <;> rfl

@[simp] theorem Endpoint.storeFrame_rxLen (e : Endpoint) (k : Nat) (b : Byte) : (e.storeFrame k b).rxLen = e.rxLen := by
  unfold Endpoint.storeFrame; split <;> rfl

@[simp] theorem Endpoint.storeFrame_txData (e : Endpoint) (k : Nat) (b : Byte) : (e.storeFrame k b).txData = e.txData := by
  unfold Endpoint.storeFrame; split <;> rfl

@[simp] theorem Endpoint.storeFrame_rxData (e : Endpoint) (k : Nat) (b : Byte) : (e.storeFrame k b).rxData = e.rxData := by
  unfold Endpoint.storeFrame; split <;> rfl

@[simp] theorem Endpoint.storeFrame_inq (e : Endpoint) (k : Nat) (b : Byte) : (e.storeFrame k b).inq = e.inq := by
  unfold Endpoint.storeFrame; split <;> rfl

@[simp] theorem Endpoint.storeFrame_outq (e : Endpoint) (k : Nat) (b : Byte) : (e.storeFrame k b).outq = e.outq := by
  unfold Endpoint.storeFrame; split <;> rfl

@[simp] theorem Endpoint.storeFrame_time (e : Endpoint) (k : Nat) (b : Byte) : (e.storeFrame k b).time = e.time := by
  unfold Endpoint.storeFrame; split <;> rfl

@[simp] theorem Endpoint.storeFrame_epoch (e : Endpoint) (k : Nat) (b : Byte) : (e.storeFrame k b).epoch = e.epoch := by
  unfold Endpoint.storeFrame; split <;> rfl

@[simp] theorem Endpoint.storeFrame_rdata (e : Endpoint) (k : Nat) (b : Byte) : (e.storeFrame k b).rdata = e.rdata := by
  unfold Endpoint.storeFrame; split <;> rfl

/-! `Endpoint.waitStart`. -/

@[simp] theorem Endpoint.waitStart_params (e : Endpoint) (call : Wait) : (e.waitStart call).params = e.params := rfl

@[simp] theorem Endpoint.waitStart_phase (e : Endpoint) (call : Wait) : (e.waitStart call).phase = e.phase := rfl

@[simp] theorem Endpoint.waitStart_timeout (e : Endpoint) (call : Wait) : (e.waitStart call).timeout = e.timeout := rfl

@[simp] theorem Endpoint.waitStart_wd (e : Endpoint) (call : Wait) : (e.waitStart call).wd = e.wd := rfl

@[simp] theorem Endpoint.waitStart_frameBuf (e : Endpoint) (call : Wait) : (e.waitStart call).frameBuf = e.frameBuf := rfl

@[simp] theorem Endpoint.waitStart_count (e : Endpoint) (call : Wait) : (e.waitStart call).count = e.count := rfl

@[simp] theorem Endpoint.waitStart_len (e : Endpoint) (call : Wait) : (e.waitStart call).len = e.len := rfl

@[simp] theorem Endpoint.waitStart_cksum (e : Endpoint) (call : Wait) : (e.waitStart call).cksum = e.cksum := rfl

@[simp] theorem Endpoint.waitStart_seq (e : Endpoint) (call : Wait) : (e.waitStart call).seq = .wb1 call := rfl

@[simp] theorem Endpoint.waitStart_wstart (e : Endpoint) (call : Wait) : (e.waitStart call).wstart = e.clock := rfl

@[simp] theorem Endpoint.waitStart_i (e : Endpoint) (call : Wait) : (e.waitStart call).i = e.i := rfl

@[simp] theorem Endpoint.waitStart_t (e : Endpoint) (call : Wait) : (e.waitStart call).t = e.t := rfl

@[simp] theorem Endpoint.waitStart_r (e : Endpoint) (call : Wait) : (e.waitStart call).r = e.r := rfl

@[simp] theorem Endpoint.waitStart_code (e : Endpoint) (call : Wait) : (e.waitStart call).code = e.code := rfl

@[simp] theorem Endpoint.waitStart_busy (e : Endpoint) (call : Wait) : (e.waitStart call).busy = e.busy := rfl

@[simp] theorem Endpoint.waitStart_arg (e : Endpoint) (call : Wait) : (e.waitStart call).arg = e.arg := rfl

@[simp] theorem Endpoint.waitStart_outLen (e : Endpoint) (call : Wait) : (e.waitStart call).outLen = e.outLen := rfl

@[simp] theorem Endpoint.waitStart_rxLen (e : Endpoint) (call : Wait) : (e.waitStart call).rxLen = e.rxLen := rfl

@[simp] theorem Endpoint.waitStart_txData (e : Endpoint) (call : Wait) : (e.waitStart call).txData = e.txData := rfl

@[simp] theorem Endpoint.waitStart_rxData (e : Endpoint) (call : Wait) : (e.waitStart call).rxData = e.rxData := rfl

@[simp] theorem Endpoint.waitStart_inq (e : Endpoint) (call : Wait) : (e.waitStart call).inq = e.inq := rfl

@[simp] theorem Endpoint.waitStart_outq (e : Endpoint) (call : Wait) : (e.waitStart call).outq = e.outq := rfl

@[simp] theorem Endpoint.waitStart_time (e : Endpoint) (call : Wait) : (e.waitStart call).time = e.time := rfl

@[simp] theorem Endpoint.waitStart_epoch (e : Endpoint) (call : Wait) : (e.waitStart call).epoch = e.epoch := rfl

@[simp] theorem Endpoint.waitStart_rdata (e : Endpoint) (call : Wait) : (e.waitStart call).rdata = e.rdata := rfl

/-! `Endpoint.foldFrame`. -/

@[simp] theorem Endpoint.foldFrame_params (e : Endpoint) : (e.foldFrame).params = e.params := rfl

@[simp] theorem Endpoint.foldFrame_phase (e : Endpoint) : (e.foldFrame).phase = e.phase := rfl

@[simp] theorem Endpoint.foldFrame_timeout (e : Endpoint) : (e.foldFrame).timeout = e.timeout := rfl

@[simp] theorem Endpoint.foldFrame_wd (e : Endpoint) : (e.foldFrame).wd = e.wd := rfl

@[simp] theorem Endpoint.foldFrame_frameBuf (e : Endpoint) : (e.foldFrame).frameBuf = e.frameBuf := rfl

@[simp] theorem Endpoint.foldFrame_count (e : Endpoint) : (e.foldFrame).count = e.count := rfl

@[simp] theorem Endpoint.foldFrame_len (e : Endpoint) : (e.foldFrame).len = e.len := rfl

@[simp] theorem Endpoint.foldFrame_cksum (e : Endpoint) : (e.foldFrame).cksum = xorFold e.frameByte e.len.toNat := rfl

@[simp] theorem Endpoint.foldFrame_seq (e : Endpoint) : (e.foldFrame).seq = e.seq := rfl

@[simp] theorem Endpoint.foldFrame_wstart (e : Endpoint) : (e.foldFrame).wstart = e.wstart := rfl

@[simp] theorem Endpoint.foldFrame_i (e : Endpoint) : (e.foldFrame).i = e.i := rfl

@[simp] theorem Endpoint.foldFrame_t (e : Endpoint) : (e.foldFrame).t = e.t := rfl

@[simp] theorem Endpoint.foldFrame_r (e : Endpoint) : (e.foldFrame).r = e.r := rfl

@[simp] theorem Endpoint.foldFrame_code (e : Endpoint) : (e.foldFrame).code = e.code := rfl

@[simp] theorem Endpoint.foldFrame_busy (e : Endpoint) : (e.foldFrame).busy = e.busy := rfl

@[simp] theorem Endpoint.foldFrame_arg (e : Endpoint) : (e.foldFrame).arg = e.arg := rfl

@[simp] theorem Endpoint.foldFrame_outLen (e : Endpoint) : (e.foldFrame).outLen = e.outLen := rfl

@[simp] theorem Endpoint.foldFrame_rxLen (e : Endpoint) : (e.foldFrame).rxLen = e.rxLen := rfl

@[simp] theorem Endpoint.foldFrame_txData (e : Endpoint) : (e.foldFrame).txData = e.txData := rfl

@[simp] theorem Endpoint.foldFrame_rxData (e : Endpoint) : (e.foldFrame).rxData = e.rxData := rfl

@[simp] theorem Endpoint.foldFrame_inq (e : Endpoint) : (e.foldFrame).inq = e.inq := rfl

@[simp] theorem Endpoint.foldFrame_outq (e : Endpoint) : (e.foldFrame).outq = e.outq := rfl

@[simp] theorem Endpoint.foldFrame_time (e : Endpoint) : (e.foldFrame).time = e.time := rfl

@[simp] theorem Endpoint.foldFrame_epoch (e : Endpoint) : (e.foldFrame).epoch = e.epoch := rfl

@[simp] theorem Endpoint.foldFrame_rdata (e : Endpoint) : (e.foldFrame).rdata = e.rdata := rfl

/-! `Endpoint.foldTx`. -/

@[simp] theorem Endpoint.foldTx_params (e : Endpoint) : (e.foldTx).params = e.params := rfl

@[simp] theorem Endpoint.foldTx_phase (e : Endpoint) : (e.foldTx).phase = e.phase := rfl

@[simp] theorem Endpoint.foldTx_timeout (e : Endpoint) : (e.foldTx).timeout = e.timeout := rfl

@[simp] theorem Endpoint.foldTx_wd (e : Endpoint) : (e.foldTx).wd = e.wd := rfl

@[simp] theorem Endpoint.foldTx_frameBuf (e : Endpoint) : (e.foldTx).frameBuf = e.frameBuf := rfl

@[simp] theorem Endpoint.foldTx_count (e : Endpoint) : (e.foldTx).count = e.count := rfl

@[simp] theorem Endpoint.foldTx_len (e : Endpoint) : (e.foldTx).len = e.len := rfl

@[simp] theorem Endpoint.foldTx_cksum (e : Endpoint) : (e.foldTx).cksum = xorFold e.txByte e.outLen.toNat := rfl

@[simp] theorem Endpoint.foldTx_seq (e : Endpoint) : (e.foldTx).seq = e.seq := rfl

@[simp] theorem Endpoint.foldTx_wstart (e : Endpoint) : (e.foldTx).wstart = e.wstart := rfl

@[simp] theorem Endpoint.foldTx_i (e : Endpoint) : (e.foldTx).i = e.i := rfl

@[simp] theorem Endpoint.foldTx_t (e : Endpoint) : (e.foldTx).t = e.t := rfl

@[simp] theorem Endpoint.foldTx_r (e : Endpoint) : (e.foldTx).r = e.r := rfl

@[simp] theorem Endpoint.foldTx_code (e : Endpoint) : (e.foldTx).code = e.code := rfl

@[simp] theorem Endpoint.foldTx_busy (e : Endpoint) : (e.foldTx).busy = e.busy := rfl

@[simp] theorem Endpoint.foldTx_arg (e : Endpoint) : (e.foldTx).arg = e.arg := rfl

@[simp] theorem Endpoint.foldTx_outLen (e : Endpoint) : (e.foldTx).outLen = e.outLen := rfl

@[simp] theorem Endpoint.foldTx_rxLen (e : Endpoint) : (e.foldTx).rxLen = e.rxLen := rfl

@[simp] theorem Endpoint.foldTx_txData (e : Endpoint) : (e.foldTx).txData = e.txData := rfl

@[simp] theorem Endpoint.foldTx_rxData (e : Endpoint) : (e.foldTx).rxData = e.rxData := rfl

@[simp] theorem Endpoint.foldTx_inq (e : Endpoint) : (e.foldTx).inq = e.inq := rfl

@[simp] theorem Endpoint.foldTx_outq (e : Endpoint) : (e.foldTx).outq = e.outq := rfl

@[simp] theorem Endpoint.foldTx_time (e : Endpoint) : (e.foldTx).time = e.time := rfl

@[simp] theorem Endpoint.foldTx_epoch (e : Endpoint) : (e.foldTx).epoch = e.epoch := rfl

@[simp] theorem Endpoint.foldTx_rdata (e : Endpoint) : (e.foldTx).rdata = e.rdata := rfl

/-! `Endpoint.enterChecksum`. -/

@[simp] theorem Endpoint.enterChecksum_params (e : Endpoint) : (e.enterChecksum).params = e.params := rfl

@[simp] theorem Endpoint.enterChecksum_phase (e : Endpoint) : (e.enterChecksum).phase = e.phase := rfl

@[simp] theorem Endpoint.enterChecksum_timeout (e : Endpoint) : (e.enterChecksum).timeout = e.timeout := rfl

@[simp] theorem Endpoint.enterChecksum_wd (e : Endpoint) : (e.enterChecksum).wd = e.wd := rfl

@[simp] theorem Endpoint.enterChecksum_frameBuf (e : Endpoint) : (e.enterChecksum).frameBuf = e.frameBuf := rfl

@[simp] theorem Endpoint.enterChecksum_count (e : Endpoint) : (e.enterChecksum).count = e.count := rfl

@[simp] theorem Endpoint.enterChecksum_len (e : Endpoint) : (e.enterChecksum).len = e.len := rfl

@[simp] theorem Endpoint.enterChecksum_cksum (e : Endpoint) : (e.enterChecksum).cksum = xorFold e.frameByte e.len.toNat := rfl

@[simp] theorem Endpoint.enterChecksum_seq (e : Endpoint) : (e.enterChecksum).seq = .wb0 .rx7 := rfl

@[simp] theorem Endpoint.enterChecksum_wstart (e : Endpoint) : (e.enterChecksum).wstart = e.wstart := rfl

@[simp] theorem Endpoint.enterChecksum_i (e : Endpoint) : (e.enterChecksum).i = e.i := rfl

@[simp] theorem Endpoint.enterChecksum_t (e : Endpoint) : (e.enterChecksum).t = e.t := rfl

@[simp] theorem Endpoint.enterChecksum_r (e : Endpoint) : (e.enterChecksum).r = e.r := rfl

@[simp] theorem Endpoint.enterChecksum_code (e : Endpoint) : (e.enterChecksum).code = e.code := rfl

@[simp] theorem Endpoint.enterChecksum_busy (e : Endpoint) : (e.enterChecksum).busy = e.busy := rfl

@[simp] theorem Endpoint.enterChecksum_arg (e : Endpoint) : (e.enterChecksum).arg = e.arg := rfl

@[simp] theorem Endpoint.enterChecksum_outLen (e : Endpoint) : (e.enterChecksum).outLen = e.outLen := rfl

@[simp] theorem Endpoint.enterChecksum_rxLen (e : Endpoint) : (e.enterChecksum).rxLen = e.rxLen := rfl

@[simp] theorem Endpoint.enterChecksum_txData (e : Endpoint) : (e.enterChecksum).txData = e.txData := rfl

@[simp] theorem Endpoint.enterChecksum_rxData (e : Endpoint) : (e.enterChecksum).rxData = e.rxData := rfl

@[simp] theorem Endpoint.enterChecksum_inq (e : Endpoint) : (e.enterChecksum).inq = e.inq := rfl

@[simp] theorem Endpoint.enterChecksum_outq (e : Endpoint) : (e.enterChecksum).outq = e.outq := rfl

@[simp] theorem Endpoint.enterChecksum_time (e : Endpoint) : (e.enterChecksum).time = e.time := rfl

@[simp] theorem Endpoint.enterChecksum_epoch (e : Endpoint) : (e.enterChecksum).epoch = e.epoch := rfl

@[simp] theorem Endpoint.enterChecksum_rdata (e : Endpoint) : (e.enterChecksum).rdata = e.rdata := rfl

/-! `Endpoint.resetTo`. -/

@[simp] theorem Endpoint.resetTo_params (e : Endpoint) (n : Nat) : (e.resetTo n).params = e.params := rfl

@[simp] theorem Endpoint.resetTo_phase (e : Endpoint) (n : Nat) : (e.resetTo n).phase = e.params.initPhase := rfl

@[simp] theorem Endpoint.resetTo_timeout (e : Endpoint) (n : Nat) : (e.resetTo n).timeout = e.params.timeoutResetUs := rfl

@[simp] theorem Endpoint.resetTo_wd (e : Endpoint) (n : Nat) : (e.resetTo n).wd = e.clock := rfl

@[simp] theorem Endpoint.resetTo_frameBuf (e : Endpoint) (n : Nat) : (e.resetTo n).frameBuf = [] := rfl

@[simp] theorem Endpoint.resetTo_count (e : Endpoint) (n : Nat) : (e.resetTo n).count = 0 := rfl

@[simp] theorem Endpoint.resetTo_len (e : Endpoint) (n : Nat) : (e.resetTo n).len = 0 := rfl

@[simp] theorem Endpoint.resetTo_cksum (e : Endpoint) (n : Nat) : (e.resetTo n).cksum = 0 := rfl

@[simp] theorem Endpoint.resetTo_seq (e : Endpoint) (n : Nat) : (e.resetTo n).seq = .idle := rfl

@[simp] theorem Endpoint.resetTo_wstart (e : Endpoint) (n : Nat) : (e.resetTo n).wstart = 0 := rfl

@[simp] theorem Endpoint.resetTo_i (e : Endpoint) (n : Nat) : (e.resetTo n).i = 0 := rfl

@[simp] theorem Endpoint.resetTo_t (e : Endpoint) (n : Nat) : (e.resetTo n).t = 0 := rfl

@[simp] theorem Endpoint.resetTo_r (e : Endpoint) (n : Nat) : (e.resetTo n).r = 0 := rfl

@[simp] theorem Endpoint.resetTo_code (e : Endpoint) (n : Nat) : (e.resetTo n).code = .none := rfl

@[simp] theorem Endpoint.resetTo_busy (e : Endpoint) (n : Nat) : (e.resetTo n).busy = false := rfl

@[simp] theorem Endpoint.resetTo_arg (e : Endpoint) (n : Nat) : (e.resetTo n).arg = 0 := rfl

@[simp] theorem Endpoint.resetTo_outLen (e : Endpoint) (n : Nat) : (e.resetTo n).outLen = 0 := rfl

@[simp] theorem Endpoint.resetTo_rxLen (e : Endpoint) (n : Nat) : (e.resetTo n).rxLen = 0 := rfl

@[simp] theorem Endpoint.resetTo_txData (e : Endpoint) (n : Nat) : (e.resetTo n).txData = [] := rfl

@[simp] theorem Endpoint.resetTo_rxData (e : Endpoint) (n : Nat) : (e.resetTo n).rxData = [] := rfl

@[simp] theorem Endpoint.resetTo_inq (e : Endpoint) (n : Nat) : (e.resetTo n).inq = e.inq := rfl

@[simp] theorem Endpoint.resetTo_outq (e : Endpoint) (n : Nat) : (e.resetTo n).outq = e.outq := rfl

@[simp] theorem Endpoint.resetTo_time (e : Endpoint) (n : Nat) : (e.resetTo n).time = e.time := rfl

@[simp] theorem Endpoint.resetTo_epoch (e : Endpoint) (n : Nat) : (e.resetTo n).epoch = n := rfl

@[simp] theorem Endpoint.resetTo_rdata (e : Endpoint) (n : Nat) : (e.resetTo n).rdata = e.rdata := rfl

end Sys2Proof.Machine
end

