-- ==== Sys2Proof/Laws/Ops.lean ====
section
/-! SUPPORT. What each shared operation can do, said once: the byte arrays, the guards of the instructions, the streams,
the checksum and the assembly of bytes. -/

namespace Sys2Proof.Machine

/-! Byte arrays. -/

theorem Memory.read_write (m : Memory) (j : Nat) (b : Byte) (k : Nat) :
    Memory.read? (Memory.write m j b) k = if k = j then some b else Memory.read? m k := by
  induction m with
  | nil => by_cases h : k = j <;> simp [Memory.write, Memory.read?, h, eq_comm (a := j)]
  | cons c m ih =>
    by_cases hlt : j < c.1
    · by_cases h : k = j <;> simp [Memory.write, Memory.read?, hlt, h, eq_comm (a := j)]
    · by_cases heq : j = c.1
      · by_cases h : k = j
        · simp [Memory.write, Memory.read?, heq, h]
        · have : c.1 ≠ k := fun hk => h (by omega)
          simp [Memory.write, Memory.read?, heq, this, Ne.symm this]
      · by_cases hk : c.1 = k
        · subst hk
          simp [Memory.write, Memory.read?, hlt, heq, Ne.symm heq]
        · simp [Memory.write, Memory.read?, hlt, heq, hk, ih]

theorem Memory.read_copyIn (m : Memory) (base : Nat) (f : Nat → Byte) (n k : Nat) :
    Memory.read? (Memory.copyIn m base f n) k =
      if base ≤ k ∧ k < base + n then some (f (k - base)) else Memory.read? m k := by
  induction n with
  | zero => simp only [Memory.copyIn]; split <;> first | omega | rfl
  | succ n ih =>
    simp only [Memory.copyIn, Memory.read_write, ih]
    split
    · next h => subst h; rw [if_pos (by omega)]; simp
    · split <;> split <;> first | rfl | omega

theorem Memory.wf_cons (c : Host.Cell) (m : Memory) :
    Memory.wf (c :: m) = true ↔ (∀ d ∈ m.head?, c.1 < d.1) ∧ Memory.wf m = true := by
  cases m <;> simp [Memory.wf]

theorem Memory.head_write (m : Memory) (j : Nat) (b : Byte) :
    ∀ d ∈ (Memory.write m j b).head?, d.1 = j ∨ d ∈ m.head? := by
  cases m with
  | nil => simp [Memory.write]
  | cons c m => intro d; simp only [Memory.write]; split <;> [skip; split] <;> simp <;> rintro rfl <;> simp

/-- A write keeps the canonical form. -/
theorem Memory.write_wf (m : Memory) (j : Nat) (b : Byte) (h : m.wf = true) : (m.write j b).wf = true := by
  induction m with
  | nil => rfl
  | cons c m ih =>
    obtain ⟨hc, hm⟩ := (Memory.wf_cons c m).1 h
    simp only [Memory.write]
    split
    · next hlt => exact (Memory.wf_cons _ _).2 ⟨by simpa using hlt, h⟩
    · split
      · next heq => exact (Memory.wf_cons _ _).2 ⟨by simpa [heq] using hc, hm⟩
      · refine (Memory.wf_cons _ _).2 ⟨fun d hd => ?_, ih hm⟩
        rcases Memory.head_write m j b d hd with h1 | h1
        · omega
        · exact hc d h1

/-- A copy keeps the canonical form. -/
theorem Memory.copyIn_wf (m : Memory) (base : Nat) (f : Nat → Byte) (n : Nat) (h : m.wf = true) :
    (m.copyIn base f n).wf = true := by
  induction n with
  | zero => exact h
  | succ n ih => exact Memory.write_wf _ _ _ ih

theorem Memory.mem_write (m : Memory) (j : Nat) (b : Byte) (c : Host.Cell) (h : c ∈ m.write j b) :
    c = (j, b) ∨ c ∈ m := by
  induction m with
  | nil => simpa [Memory.write] using h
  | cons d m ih =>
    simp only [Memory.write] at h
    split at h
    · simpa using h
    · split at h
      · rcases List.mem_cons.1 h with h1 | h1
        · exact .inl h1
        · exact .inr (List.mem_cons_of_mem _ h1)
      · rcases List.mem_cons.1 h with h1 | h1
        · exact .inr (h1 ▸ List.mem_cons_self)
        · exact (ih h1).imp id (List.mem_cons_of_mem _)

theorem Endpoint.bufByte_eq (e : Endpoint) (buf : Buf) (m : Memory) (k : Nat) :
    e.bufByte buf m k =
      if k < buf.size then (Memory.read? m k).getD (Config.resetByte e.epoch buf k) else Config.resetByte e.epoch buf k := by
  unfold Endpoint.bufByte; cases Memory.read? m k <;> simp

/-- Reading after a copy of bytes that lie inside the array. -/
theorem Endpoint.bufByte_copyIn (e : Endpoint) (buf : Buf) (m : Memory) (base : Nat) (f : Nat → Byte) (n k : Nat)
    (h : base + n ≤ buf.size) :
    e.bufByte buf (m.copyIn base f n) k = if base ≤ k ∧ k < base + n then f (k - base) else e.bufByte buf m k := by
  simp only [Endpoint.bufByte_eq, Memory.read_copyIn]
  split <;> split <;> first | rfl | omega

/-- `FRAME_BUF[j] <- b` changes the byte at `j`, if the buffer has it, and no other. -/
theorem Endpoint.storeFrame_frameByte (e : Endpoint) (j : Nat) (b : Byte) (k : Nat) :
    (e.storeFrame j b).frameByte k = if k = j ∧ j < Config.bufCapacity then b else e.frameByte k := by
  unfold Endpoint.storeFrame
  by_cases hj : j < Config.bufCapacity
  · simp only [hj, if_true, and_true, Endpoint.frameByte, Endpoint.bufByte_eq, Memory.read_write]
    by_cases hk : k = j
    · subst hk; simp [Buf.size, hj]
    · simp [hk]
  · simp [hj]

theorem Endpoint.storeFrame_wf (e : Endpoint) (j : Nat) (b : Byte) (h : e.frameBuf.wf = true) :
    (e.storeFrame j b).frameBuf.wf = true := by
  unfold Endpoint.storeFrame
  split
  · exact Memory.write_wf _ _ _ h
  · exact h

theorem Endpoint.mem_storeFrame (e : Endpoint) (j : Nat) (b : Byte) (c : Host.Cell)
    (h : c ∈ (e.storeFrame j b).frameBuf) : c = (j, b) ∨ c ∈ e.frameBuf := by
  unfold Endpoint.storeFrame at h
  split at h
  · exact Memory.mem_write _ _ _ _ h
  · exact .inr h

/-! The adapter primitives. -/

theorem Endpoint.tryReadByte_cases (e : Endpoint) :
    (e.inq = [] ∧ e.tryReadByte = (none, e)) ∨
    ∃ b rest, e.inq = b :: rest ∧ e.tryReadByte = (some b, { e with inq := rest }) := by
  unfold Endpoint.tryReadByte
  cases h : e.inq with
  | nil => exact .inl ⟨rfl, rfl⟩
  | cons b rest => exact .inr ⟨b, rest, rfl, rfl⟩

theorem Endpoint.byteAvailable_iff (e : Endpoint) : e.byteAvailable = true ↔ e.inq ≠ [] := by
  unfold Endpoint.byteAvailable; cases e.inq <;> simp

@[simp] theorem expired_iff (later earlier limit : Word) :
    expired later earlier limit = true ↔ limit.toNat < (later - earlier).toNat := by
  simp [expired, BitVec.lt_def]

/-! The guards of the instructions. -/

/-- A command word gives a next state always: ignored while BUSY = 1, the command's effect while BUSY = 0. -/
theorem accept_cases (k : Endpoint → Endpoint) (s : State) :
    (s.cur.busy = true ∧ accept k s = .next s) ∨ (s.cur.busy = false ∧ accept k s = .next (s.setCur (k s.cur))) := by
  unfold accept; cases s.cur.busy <;> simp

/-- A wire byte read as control gives a next state exactly at its position with a byte in the FIFO. -/
theorem atControl_next {call : Wait} {k : Endpoint → Endpoint} {s t : State} (h : atControl call k s = .next t) :
    s.cur.seq = .rd call ∧ ∃ b rest, s.cur.inq = b :: rest ∧ t = s.setCur (k { s.cur with inq := rest }) := by
  unfold atControl at h
  split at h
  · next hs =>
    refine ⟨hs, ?_⟩
    rcases s.cur.tryReadByte_cases with ⟨_, h2⟩ | ⟨b, rest, h1, h2⟩
    · rw [h2] at h; cases h
    · rw [h2] at h; exact ⟨b, rest, h1, (Host.Outcome.next.inj h).symm⟩
  · cases h

theorem atControl_eq {call : Wait} {k : Endpoint → Endpoint} {s : State} {b : Byte} {rest : List Byte}
    (hs : s.cur.seq = .rd call) (hq : s.cur.inq = b :: rest) :
    atControl call k s = .next (s.setCur (k { s.cur with inq := rest })) := by
  simp [atControl, hs, Endpoint.tryReadByte, hq]

/-- A control byte sent gives a next state exactly at its position. -/
theorem atEmit_next {pos : Seq} {b : Byte} {k : Endpoint → Endpoint} {s t : State} (h : atEmit pos b k s = .next t) :
    s.cur.seq = pos ∧ t = s.setCur (k (s.cur.writeByte b)) := by
  unfold atEmit at h
  split at h
  · next hs => exact ⟨hs, (Host.Outcome.next.inj h).symm⟩
  · cases h

theorem atEmit_eq {pos : Seq} {b : Byte} {k : Endpoint → Endpoint} {s : State} (hs : s.cur.seq = pos) :
    atEmit pos b k s = .next (s.setCur (k (s.cur.writeByte b))) := by simp [atEmit, hs]

/-! The block in the host's address space. -/

theorem Endpoint.offset?_iff (e : Endpoint) (addr : Nat) (off : BitVec 10) :
    e.offset? addr = some off ↔ addr = e.hostAddr off := by
  have hlt := off.isLt
  unfold Endpoint.offset? Endpoint.hostAddr Config.blockSize
  split
  · next h =>
    rw [Option.some.injEq, ← BitVec.toNat_inj, BitVec.toNat_ofNat]
    omega
  · next h => simp; omega

@[simp] theorem Endpoint.offset?_hostAddr (e : Endpoint) (off : BitVec 10) : e.offset? (e.hostAddr off) = some off :=
  (e.offset?_iff _ off).2 rfl

/-! The line. -/

theorem State.takeOut_cases (s : State) (x : Side) (f : Byte → Endpoint → Endpoint) :
    ((s.get x).outq = [] ∧ s.takeOut x f = s) ∨
    ∃ b rest, (s.get x).outq = b :: rest ∧
      s.takeOut x f = (s.put x { s.get x with outq := rest }).put x.other (f b (s.get x.other)) := by
  unfold State.takeOut
  cases h : (s.get x).outq with
  | nil => exact .inl ⟨rfl, rfl⟩
  | cons b rest => exact .inr ⟨b, rest, rfl, rfl⟩

/-! The engine's steps. -/

theorem Endpoint.dispatch_eq (e : Endpoint) :
    e.dispatch = { e with
      seq := if e.phase = .receive then .wb0 .rx1 else if e.outLen = 0 then .tx1 else .tx2 } := by
  unfold Endpoint.dispatch
  cases e.phase
  · rfl
  · by_cases h : e.outLen = 0#8 <;> simp [h]

theorem Endpoint.waitPoll_eq (e : Endpoint) (call : Wait) :
    e.waitPoll call = { e with seq := if e.inq = [] then .wb2 call else .rd call } := by
  unfold Endpoint.waitPoll
  by_cases h : e.inq = []
  · rw [if_neg (by simp [Endpoint.byteAvailable_iff, h]), if_pos h]
  · rw [if_pos (e.byteAvailable_iff.2 h), if_neg h]

theorem Endpoint.waitClock_eq (e : Endpoint) (call : Wait) :
    e.waitClock call =
      if e.timeout.toNat < (e.clock - e.wstart).toNat then e.complete call.timeoutStatus
      else { e with seq := .wb1 call } := by
  unfold Endpoint.waitClock
  by_cases h : e.timeout.toNat < (e.clock - e.wstart).toNat
  · rw [if_pos ((expired_iff _ _ _).2 h), if_pos h]
  · rw [if_neg (mt (expired_iff _ _ _).1 h), if_neg h]

/-! The checksum. -/

theorem xorFold_congr {a b : Nat → Byte} {n : Nat} (h : ∀ k, k < n → a k = b k) : xorFold a n = xorFold b n := by
  induction n with
  | zero => rfl
  | succ n ih => simp only [xorFold]; rw [ih (fun k hk => h k (by omega)), h n (by omega)]

/-! Byte order. -/

theorem byteOf_getLsbD (w : Word) (k i : Nat) : (byteOf w k).getLsbD i = (decide (i < 8) && w.getLsbD (8 * k + i)) := by
  simp [byteOf, BitVec.getLsbD_extractLsb']

end Sys2Proof.Machine
end

