-- ==== Sys2Proof/Laws/HostPort.lean ====
section
/-! SUPPORT. The host's reads, said once: byte `k` of a read's value, and the byte at each place of the map of
20_memory.md R61. -/

namespace Sys2Proof

/-! Words and their bytes. -/

theorem leWord_getLsbD (f : Nat → Byte) (n i : Nat) :
    (leWord f n).getLsbD i = (decide (i < 32) && decide (i < 8 * n) && (f (i / 8)).getLsbD (i % 8)) := by
  induction n with
  | zero => simp [leWord]
  | succ n ih =>
    simp only [leWord, BitVec.getLsbD_or, ih, BitVec.getLsbD_shiftLeft, BitVec.getLsbD_setWidth]
    by_cases h : i < 8 * n
    · simp [h, show i < 8 * (n + 1) by omega]
    · by_cases h2 : i < 8 * (n + 1)
      · rw [show i - 8 * n = i % 8 by omega, show i / 8 = n by omega, decide_eq_true (show i % 8 < 32 by omega)]
        simp [h, h2]
      · simp [h, h2]; intros; apply BitVec.getLsbD_of_ge; omega

/-- Byte `k` of the word made of `n` bytes. -/
theorem byteOf_leWord (f : Nat → Byte) (n k : Nat) (hn : n ≤ 4) :
    byteOf (leWord f n) k = if k < n then f k else 0 := by
  ext i hi
  rw [← BitVec.getLsbD_eq_getElem, Machine.byteOf_getLsbD, leWord_getLsbD,
    show (8 * k + i) / 8 = k by omega, show (8 * k + i) % 8 = i by omega]
  split
  · simp [hi, show 8 * k + i < 8 * n by omega, show 8 * k + i < 32 by omega]
  · simp [show ¬ 8 * k + i < 8 * n by omega]

@[simp] theorem byteOf_zero (k : Nat) : byteOf 0 k = 0 := by
  ext i hi
  rw [← BitVec.getLsbD_eq_getElem, Machine.byteOf_getLsbD]
  simp

/-- A word is known by its four bytes. -/
theorem word_ext {w v : Word} (h : ∀ k, k < 4 → byteOf w k = byteOf v k) : w = v := by
  ext i hi
  have := congrArg (BitVec.getLsbD · (i % 8)) (h (i / 8) (by omega))
  simp only [Machine.byteOf_getLsbD] at this
  simpa [show i % 8 < 8 by omega, show 8 * (i / 8) + i % 8 = i by omega, ← BitVec.getLsbD_eq_getElem] using this

namespace Machine

theorem Width.bytes_le (n : Width) : n.bytes ≤ 4 := by cases n <;> decide

/-! The reads. -/

/-- Byte `k` of a naturally aligned read. -/
theorem Endpoint.byteOf_memRead (e : Endpoint) (draw : Nat) (addr : BitVec 10) (n : Width) (k : Nat)
    (h : addr.toNat % n.bytes = 0) :
    byteOf (e.memRead draw addr n) k = if k < n.bytes then e.hostByte draw (addr.toNat + k) else 0 := by
  simp only [memRead, aligned, h, beq_self_eq_true, if_true]
  exact byteOf_leWord _ _ _ n.bytes_le

theorem Endpoint.memRead_misaligned (e : Endpoint) (draw : Nat) (addr : BitVec 10) (n : Width)
    (h : addr.toNat % n.bytes ≠ 0) : e.memRead draw addr n = 0 := by simp [memRead, aligned, h]

/-! The map. -/

/-- The map with its offsets written out. -/
theorem Endpoint.hostByte_eq (e : Endpoint) (draw o : Nat) :
    e.hostByte draw o =
      if o < 0x018 then byteOf (e.regWord (o / 4)) (o % 4)
      else if o < 0x01C then e.resultByte draw o (byteOf (e.regWord (o / 4)) (o % 4))
      else if o < 0x100 then 0
      else if o < 0x200 then e.txByte (o - 0x100)
      else if o < 0x300 then e.resultByte draw o (e.rxByte (o - 0x200))
      else 0 := rfl

theorem Endpoint.hostByte_register (e : Endpoint) (draw o : Nat) (h : o < 0x018) :
    e.hostByte draw o = byteOf (e.regWord (o / 4)) (o % 4) := if_pos h

theorem Endpoint.hostByte_rxLen (e : Endpoint) (draw o : Nat) (h : 0x018 ≤ o) (h' : o < 0x01C) :
    e.hostByte draw o = e.resultByte draw o (byteOf (e.regWord (o / 4)) (o % 4)) := by
  rw [hostByte_eq, if_neg (show ¬ o < 0x018 by omega), if_pos (show o < 0x01C by omega)]

theorem Endpoint.hostByte_txData (e : Endpoint) (draw o : Nat) (h : 0x100 ≤ o) (h' : o < 0x200) :
    e.hostByte draw o = e.txByte (o - 0x100) := by
  rw [hostByte_eq, if_neg (show ¬ o < 0x018 by omega), if_neg (show ¬ o < 0x01C by omega), if_neg (show ¬ o < 0x100 by omega),
    if_pos (show o < 0x200 by omega)]

theorem Endpoint.hostByte_rxData (e : Endpoint) (draw o : Nat) (h : 0x200 ≤ o) (h' : o < 0x300) :
    e.hostByte draw o = e.resultByte draw o (e.rxByte (o - 0x200)) := by
  rw [hostByte_eq, if_neg (show ¬ o < 0x018 by omega), if_neg (show ¬ o < 0x01C by omega), if_neg (show ¬ o < 0x100 by omega),
    if_neg (show ¬ o < 0x200 by omega), if_pos (show o < 0x300 by omega)]

theorem Endpoint.hostByte_reserved (e : Endpoint) (draw o : Nat) (h : 0x01C ≤ o ∧ o < 0x100 ∨ 0x300 ≤ o) :
    e.hostByte draw o = 0 := by
  rw [hostByte_eq, if_neg (show ¬ o < 0x018 by omega), if_neg (show ¬ o < 0x01C by omega)]
  by_cases ho : o < 0x100
  · rw [if_pos (show o < 0x100 by omega)]
  · rw [if_neg (show ¬ o < 0x100 by omega), if_neg (show ¬ o < 0x200 by omega), if_neg (show ¬ o < 0x300 by omega)]

@[simp] theorem Endpoint.resultByte_busy (e : Endpoint) (draw o : Nat) (b : Byte) (h : e.busy = true) :
    e.resultByte draw o b = Config.busyByte draw o := if_pos h

@[simp] theorem Endpoint.resultByte_idle (e : Endpoint) (draw o : Nat) (b : Byte) (h : e.busy = false) :
    e.resultByte draw o b = b := if_neg (by simp [h])

end Machine

end Sys2Proof
end

