-- ==== Sys2Proof/Laws/PerInstr.lean ====
section
/-! SUPPORT. A property of every instruction as syntax, one lemma per constructor: its encoding has the length of an item
of its space (30_encoding.md R90, R97). -/

namespace Sys2Proof.Laws.EncodedSize

/-- The encoding of `i` has the length of an item of its space. -/
def Statement (i : Instr) : Prop := (encode i).2.length = (encode i).1.size

theorem work : Statement .work := rfl
theorem setTimeout : Statement .setTimeout := rfl
theorem setPhase : Statement .setPhase := rfl
theorem reserved00 : Statement .reserved00 := rfl
theorem reserved04 (low : BitVec 2) : Statement (.reserved04 low) := rfl
theorem reserved08 (low : BitVec 3) : Statement (.reserved08 low) := rfl
theorem reserved10 (low : BitVec 4) : Statement (.reserved10 low) := rfl
theorem reserved20 (low : BitVec 5) : Statement (.reserved20 low) := rfl
theorem reserved40 (low : BitVec 6) : Statement (.reserved40 low) := rfl
theorem reserved80 (low : BitVec 7) : Statement (.reserved80 low) := rfl
theorem enq : Statement .enq := rfl
theorem can : Statement .can := rfl
theorem rxOther (byte : Byte) : Statement (.rxOther byte) := rfl
theorem ack : Statement .ack := rfl
theorem txOther (byte : Byte) : Statement (.txOther byte) := rfl
theorem sendCan : Statement .sendCan := rfl
theorem sendEnq : Statement .sendEnq := rfl
theorem sendAck : Statement .sendAck := rfl

end Sys2Proof.Laws.EncodedSize
end

