-- ==== Sys2Proof/Laws/Step.lean ====
section
/-! SUPPORT. What one step can do, said once: the engine's step and the host's write as functions of the acting endpoint
alone, and the step of the machine by its event. -/

namespace Sys2Proof.Machine

/-! The engine. -/

/-- The engine's adapter call and what goes with it at one endpoint, the control bytes among them (41_receive.md R140,
42_transmit.md R170). -/
def Endpoint.callTurn (e : Endpoint) : Endpoint :=
  match e.seq with
  | .rd .rx1 =>
    match e.inq with
    | [] => e.complete .idleNoData
    | b :: rest =>
      if b = Config.enq then { e with inq := rest, seq := .rx3 }
      else if b = Config.can then { e with inq := rest, phase := .transmit }.complete .peerCancelled
      else { e with inq := rest }.complete .idleNoData
  | .rd .tx3 =>
    match e.inq with
    | [] => e.complete .ackTimeout
    | b :: rest =>
      if b = Config.ack then { e with inq := rest, seq := .tx4 } else { e with inq := rest }.complete .ackTimeout
  | .rx3 => { e.writeByte Config.ack with seq := .wb0 .rx4 }
  | .tx1 => { e.writeByte Config.can with phase := .receive }.complete .nothingToSend
  | .tx2 => { e.writeByte Config.enq with seq := .wb0 .tx3 }
  | _ => e.engineStep

/-- The engine's whole step at one endpoint (00_scope.md R18; log 4). -/
def Endpoint.engineTurn (e : Endpoint) : Endpoint := e.settle.callTurn

theorem stepCall_rx1 (s : State) (hs : s.cur.seq = .rd .rx1) : stepCall s = .next (s.setCur s.cur.callTurn) := by
  cases hq : s.cur.inq with
  | nil =>
    simp [stepCall, fetchEngine, Endpoint.callTurn, Endpoint.engineStep, hs, Endpoint.readData,
      Endpoint.tryReadByte, hq, Wait.timeoutStatus]
  | cons b rest =>
    simp only [stepCall, fetchEngine, hs, hq, List.head?_cons, Option.map_some, runItem, decode, decodeRxFirst,
      Endpoint.callTurn]
    split
    · exact atControl_eq hs hq
    · split
      · exact atControl_eq hs hq
      · exact atControl_eq hs hq

theorem stepCall_tx3 (s : State) (hs : s.cur.seq = .rd .tx3) : stepCall s = .next (s.setCur s.cur.callTurn) := by
  cases hq : s.cur.inq with
  | nil =>
    simp [stepCall, fetchEngine, Endpoint.callTurn, Endpoint.engineStep, hs, Endpoint.readData,
      Endpoint.tryReadByte, hq, Wait.timeoutStatus]
  | cons b rest =>
    simp only [stepCall, fetchEngine, hs, hq, List.head?_cons, Option.map_some, runItem, decode, decodeAckWait,
      Endpoint.callTurn]
    split
    · exact atControl_eq hs hq
    · exact atControl_eq hs hq

theorem stepCall_eq (s : State) : stepCall s = .next (s.setCur s.cur.callTurn) := by
  cases hs : s.cur.seq with
  | rd call =>
    cases call with
    | rx1 => exact stepCall_rx1 s hs
    | tx3 => exact stepCall_tx3 s hs
    | rx4 => simp [stepCall, fetchEngine, hs, Endpoint.callTurn]
    | rx5 => simp [stepCall, fetchEngine, hs, Endpoint.callTurn]
    | rx7 => simp [stepCall, fetchEngine, hs, Endpoint.callTurn]
  | rx3 =>
    simp only [stepCall, fetchEngine, hs, Endpoint.callTurn]
    show execSendAck s = _
    rw [execSendAck, atEmit_eq hs]
  | tx1 =>
    simp only [stepCall, fetchEngine, hs, Endpoint.callTurn]
    show execSendCan s = _
    rw [execSendCan, atEmit_eq hs]
  | tx2 =>
    simp only [stepCall, fetchEngine, hs, Endpoint.callTurn]
    show execSendEnq s = _
    rw [execSendEnq, atEmit_eq hs]
  | _ => simp [stepCall, fetchEngine, hs, Endpoint.callTurn]

theorem stepEngine_eq (s : State) : stepEngine s = .next (s.setCur s.cur.engineTurn) := by
  simp [stepEngine, stepCall_eq, Endpoint.engineTurn, State.cur, State.setCur]

/-- Where the line before left no local computation, a step is its adapter call alone. -/
theorem Endpoint.settle_eq_self {e : Endpoint} (h₁ : e.seq ≠ .toggle) (h₂ : e.seq ≠ .latch) (h₃ : e.seq ≠ .store) :
    e.settle = e := by
  unfold settle; split <;> simp_all

/-- The local computation of W1 past the interval, and within it (40_phase_control.md R122). -/
theorem Endpoint.watchdog_past {e : Endpoint} (h : e.params.toggleIntervalUs.toNat < (e.t - e.wd).toNat) :
    e.watchdog = { e with phase := phaseFlip e.phase, wd := e.t }.dispatch := if_pos ((expired_iff _ _ _).2 h)

theorem Endpoint.watchdog_within {e : Endpoint} (h : ¬ e.params.toggleIntervalUs.toNat < (e.t - e.wd).toNat) :
    e.watchdog = e.dispatch := if_neg (mt (expired_iff _ _ _).1 h)

/-- The local computation of RX4 at a nonzero length. -/
theorem Endpoint.latchLength_eq (e : Endpoint) (h : e.r ≠ 0) :
    e.latchLength = { e with len := e.r, count := 0, i := 0, seq := .wb0 .rx5 } := by
  simp only [latchLength]; rw [if_neg h]

/-- The local computation of RX4 at length 0: an empty frame, whose fold is 0. -/
theorem Endpoint.latchLength_zero (e : Endpoint) (h : e.r = 0) :
    e.latchLength = { e with len := 0, count := 0, i := 0, cksum := 0, seq := .wb0 .rx7 } := by
  simp [latchLength, h, enterChecksum, foldFrame, xorFold]

theorem Endpoint.nextIndex_toNat {e : Endpoint} (h : e.i.toNat < e.len.toNat) : (e.i + 1).toNat = e.i.toNat + 1 := by
  have := e.len.isLt
  rw [BitVec.toNat_add]; simp; omega

/-- The local computation of RX5 before the last payload byte. -/
theorem Endpoint.storePayload_more {e : Endpoint} (h : e.i.toNat + 1 < e.len.toNat) :
    e.storePayload = { e.storeFrame e.i.toNat e.r with
      count := e.i.setWidth 16 + 1, i := e.i + 1, seq := .wb0 .rx5 } := by
  simp only [storePayload, nextIndex_toNat (Nat.lt_of_succ_lt h), storeFrame_len]
  rw [if_pos h]

/-- The local computation of RX5 at the last payload byte. -/
theorem Endpoint.storePayload_last {e : Endpoint} (h : e.i.toNat + 1 = e.len.toNat) :
    e.storePayload = { e.storeFrame e.i.toNat e.r with
      count := e.i.setWidth 16 + 1, i := e.i + 1
      cksum := xorFold (e.storeFrame e.i.toNat e.r).frameByte e.len.toNat, seq := .wb0 .rx7 } := by
  simp only [storePayload, nextIndex_toNat (show e.i.toNat < e.len.toNat by omega), storeFrame_len]
  rw [if_neg (by omega)]
  simp only [enterChecksum, foldFrame]
  rfl

/-- Away from the three positions with a local computation left, the engine's step is its adapter call. -/
theorem Endpoint.engineTurn_eq_callTurn {e : Endpoint} (h₁ : e.seq ≠ .toggle) (h₂ : e.seq ≠ .latch)
    (h₃ : e.seq ≠ .store) : e.engineTurn = e.callTurn := by
  rw [engineTurn, settle_eq_self h₁ h₂ h₃]

/-- What a local computation never writes: what the host owns, the results, the streams, STATUS, the clock and the model's
own fields. -/
theorem Endpoint.settle_static (e : Endpoint) :
    e.settle.params = e.params ∧ e.settle.timeout = e.timeout ∧ e.settle.arg = e.arg ∧ e.settle.outLen = e.outLen ∧
      e.settle.txData = e.txData ∧ e.settle.rxData = e.rxData ∧ e.settle.rxLen = e.rxLen ∧ e.settle.inq = e.inq ∧
      e.settle.outq = e.outq ∧ e.settle.code = e.code ∧ e.settle.busy = e.busy ∧ e.settle.time = e.time ∧
      e.settle.epoch = e.epoch ∧ e.settle.rdata = e.rdata := by
  cases hs : e.seq <;>
    simp only [settle, hs, watchdog, latchLength, storePayload, enterChecksum, dispatch_eq, storeFrame, foldFrame] <;>
    (repeat' split) <;> simp

/-- What no adapter call writes at its own endpoint (10_state.md R44). -/
theorem Endpoint.callTurn_static (e : Endpoint) :
    e.callTurn.params = e.params ∧ e.callTurn.timeout = e.timeout ∧ e.callTurn.arg = e.arg ∧
      e.callTurn.outLen = e.outLen ∧ e.callTurn.txData = e.txData ∧ e.callTurn.time = e.time ∧
      e.callTurn.epoch = e.epoch ∧ e.callTurn.rdata = e.rdata := by
  cases hs : e.seq with
  | rd call =>
    rcases e.tryReadByte_cases with ⟨hq, h⟩ | ⟨b, rest, hq, h⟩ <;>
      cases call <;>
      simp only [callTurn, hs, hq, engineStep, readData, h, takeData, checkFrame] <;>
      (repeat' split) <;> simp
  | _ =>
    simp only [callTurn, hs, engineStep, readWatch, waitPoll, waitClock, applyFrame, sendLength, sendPayload,
      sendChecksum, finishTransmit]
    (repeat' split) <;> simp

/-- What no step of the engine writes at its own endpoint: the parameters, the registers the host owns, TIMEOUT, the clock
and the model's own fields (10_state.md R44). -/
theorem Endpoint.engineTurn_static (e : Endpoint) :
    e.engineTurn.params = e.params ∧ e.engineTurn.timeout = e.timeout ∧ e.engineTurn.arg = e.arg ∧
      e.engineTurn.outLen = e.outLen ∧ e.engineTurn.txData = e.txData ∧ e.engineTurn.time = e.time ∧
      e.engineTurn.epoch = e.epoch ∧ e.engineTurn.rdata = e.rdata := by
  obtain ⟨h1, h2, h3, h4, h5, -, -, -, -, -, -, h6, h7, h8⟩ := e.settle_static
  have h := e.settle.callTurn_static
  rwa [h1, h2, h3, h4, h5, h6, h7, h8] at h

/-! The host. -/

theorem leWord_wordBytes (w : Word) :
    leWord (fun k => [byteOf w 0, byteOf w 1, byteOf w 2, byteOf w 3].getD k 0) 4 = w := by
  refine word_ext fun k hk => ?_
  rw [byteOf_leWord _ _ _ le_rfl, if_pos hk]
  match k, hk with
  | 0, _ => rfl
  | 1, _ => rfl
  | 2, _ => rfl
  | 3, _ => rfl

/-- What a command word does to the acting endpoint while BUSY = 0 (30_encoding.md R91, R92). -/
def Endpoint.commandTurn (e : Endpoint) : Instr → Endpoint
  | .work => e.startWork
  | .setTimeout => { e with timeout := maxWord e.requestedTimeout e.params.timeoutMinUs }
  | .setPhase => { e with phase := e.requestedPhase }
  | _ => badCommand e

/-- The host's whole write at one endpoint, a command word among it. -/
def Endpoint.writeTurn (e : Endpoint) (addr : BitVec 10) (n : Width) (v : Word) : Endpoint :=
  if e.busy then e
  else if addr = Config.offCmd ∧ n = .w4 then e.commandTurn (decodeCmd v)
  else e.memWrite addr n v

/-- What no write of a host changes at its endpoint: the engine's buffers and counters, the results, the streams, the clock
(10_state.md R44). -/
theorem Endpoint.writeTurn_static (e : Endpoint) (addr : BitVec 10) (n : Width) (v : Word) :
    (e.writeTurn addr n v).params = e.params ∧ (e.writeTurn addr n v).wd = e.wd ∧
      (e.writeTurn addr n v).frameBuf = e.frameBuf ∧ (e.writeTurn addr n v).rxData = e.rxData ∧
      (e.writeTurn addr n v).rxLen = e.rxLen ∧ (e.writeTurn addr n v).inq = e.inq ∧
      (e.writeTurn addr n v).outq = e.outq ∧ (e.writeTurn addr n v).time = e.time ∧
      (e.writeTurn addr n v).epoch = e.epoch := by
  unfold writeTurn commandTurn memWrite startWork badCommand
  simp only [dispatch_eq]
  (repeat' split) <;> simp

/-- The host's write at a physical address: outside the block nothing moves (20_memory.md R61; log 20). -/
def Endpoint.hostTurn (e : Endpoint) (addr : Nat) (n : Width) (v : Word) : Endpoint :=
  match e.offset? addr with
  | some off => e.writeTurn off n v
  | none => e

@[simp] theorem Endpoint.hostTurn_hostAddr (e : Endpoint) (off : BitVec 10) (n : Width) (v : Word) :
    e.hostTurn (e.hostAddr off) n v = e.writeTurn off n v := by simp [hostTurn]

/-- A host's write is a write at one of the block's offsets, or nothing moves. -/
theorem Endpoint.hostTurn_cases (e : Endpoint) (addr : Nat) (n : Width) (v : Word) :
    (∃ off, addr = e.hostAddr off ∧ e.hostTurn addr n v = e.writeTurn off n v) ∨ e.hostTurn addr n v = e := by
  unfold hostTurn
  cases h : e.offset? addr with
  | none => exact .inr rfl
  | some off => exact .inl ⟨off, (e.offset?_iff _ _).1 h, rfl⟩

theorem exec_decodeCmd (w : Word) (s : State) :
    exec (decodeCmd w) s = .next (s.setCur (if s.cur.busy then s.cur else s.cur.commandTurn (decodeCmd w))) := by
  have hput : s.setCur s.cur = s := State.put_get s s.turn
  unfold decodeCmd
  cases hb : s.cur.busy <;> simp only [if_true, if_false, Bool.false_eq_true, hput] <;> repeat' split
  all_goals
    simp [exec, execWork, execSetTimeout, execSetPhase, execReserved00, execReserved04, execReserved08, execReserved10,
      execReserved20, execReserved40, execReserved80, accept, hb, Endpoint.commandTurn]

theorem stepWrite_eq (s : State) (addr : BitVec 10) (n : Width) (v : Word) :
    stepWrite s addr n v = .next (s.setCur (s.cur.writeTurn addr n v)) := by
  unfold stepWrite fetchWrite Endpoint.writeTurn
  by_cases h : addr = Config.offCmd ∧ n = .w4
  · simp only [h, and_self, if_true, runItem, wordBytes, decode, leWord_wordBytes, exec_decodeCmd]
  · simp only [h, if_false]
    unfold State.hostWrite Endpoint.memWrite
    cases s.cur.busy <;> simp

theorem stepHost_write (s : State) (addr : Nat) (n : Width) (v : Word) :
    stepHost s addr (fun off => stepWrite s off n v) = .next (s.setCur (s.cur.hostTurn addr n v)) := by
  unfold stepHost Endpoint.hostTurn
  cases s.cur.offset? addr with
  | none => exact congrArg _ (State.put_get s s.turn).symm
  | some off => exact stepWrite_eq s off n v

/-- The host's read at a physical address: outside the block nothing moves (20_memory.md R61; log 20). -/
def State.readTurn (s : State) (addr : Nat) (n : Width) : State :=
  match s.cur.offset? addr with
  | some off => s.hostRead off n
  | none => s

theorem stepHost_read (s : State) (addr : Nat) (n : Width) :
    stepHost s addr (fun off => .next (s.hostRead off n)) = .next (s.readTurn addr n) := by
  unfold stepHost State.readTurn
  cases s.cur.offset? addr <;> rfl

/-! The machine. -/

/-- One step: no event and nothing moves, or the next event's effect on the link without it. Every step answers. -/
theorem step_eq (s : State) :
    step s = .next (match s.sched with
      | [] => s
      | .hostRead x addr n :: rest => (({ s with sched := rest } : State).atSide x).readTurn addr n
      | .hostWrite x addr n v :: rest =>
        (({ s with sched := rest } : State).atSide x).put x ((s.get x).hostTurn addr n v)
      | .engine x :: rest => (({ s with sched := rest } : State).atSide x).put x (s.get x).engineTurn
      | .clock x d :: rest => ({ s with sched := rest } : State).tick x d
      | .deliver x :: rest => ({ s with sched := rest } : State).lineDeliver x
      | .lose x :: rest => ({ s with sched := rest } : State).lineLose x
      | .corrupt x b :: rest => ({ s with sched := rest } : State).lineCorrupt x b
      | .noise x b :: rest => ({ s with sched := rest } : State).lineNoise x b
      | .reset x :: rest => (({ s with sched := rest } : State).atSide x).resetCur) := by
  unfold step
  cases s.sched with
  | nil => rfl
  | cons ev rest =>
    cases ev <;> simp only [stepEvent, stepEngine_eq, stepHost_write, stepHost_read, State.atSide_cur, State.get_sched,
      State.atSide_setCur]

/-- An endpoint whose line, clock or reading host moved: only its outbound stream (which gained no byte), its clock and its
host's latest value may differ. -/
def Endpoint.moved (e e' : Endpoint) : Prop :=
  e' = { e with outq := e'.outq, time := e'.time, rdata := e'.rdata } ∧ e'.outq.length ≤ e.outq.length

theorem Endpoint.moved_refl (e : Endpoint) : e.moved e := ⟨rfl, le_rfl⟩

/-- What one step can do to the endpoint `x`: its engine's step, its host's write, its reset, a byte arriving from the line,
or a move of its environment that touches nothing the controller owns. -/
theorem step_get {s t : State} (h : step s = .next t) (x : Side) :
    (∃ rest, s.sched = .engine x :: rest ∧ t.get x = (s.get x).engineTurn) ∨
    (∃ addr n v rest, s.sched = .hostWrite x addr n v :: rest ∧ t.get x = (s.get x).hostTurn addr n v) ∨
    (∃ rest, s.sched = .reset x :: rest ∧ t.get x = (s.get x).resetTo s.draws) ∨
    (∃ b rest, t.get x = (s.get x).arrive b ∧
      (s.sched = .deliver x.other :: rest ∧ (s.get x.other).outq.head? = some b ∨
       s.linkModel = .lossy ∧ s.sched = .corrupt x.other b :: rest ∨
       s.linkModel = .lossy ∧ s.sched = .noise x b :: rest)) ∨
    ((s.get x).moved (t.get x) ∧ (∀ rest, s.sched ≠ .engine x :: rest) ∧
      (∀ addr n v rest, s.sched ≠ .hostWrite x addr n v :: rest)) := by
  rw [step_eq] at h
  obtain rfl := Host.Outcome.next.inj h
  clear h
  obtain ⟨a, b, lm, turn, sched, draws⟩ := s
  cases sched with
  | nil => exact .inr (.inr (.inr (.inr ⟨Endpoint.moved_refl _, by simp, by simp⟩)))
  | cons ev rest =>
    cases ev with
    | engine y =>
      cases x <;> cases y <;>
        first
        | exact .inl ⟨rest, rfl, rfl⟩
        | exact .inr (.inr (.inr (.inr ⟨Endpoint.moved_refl _, by simp, by simp⟩)))
    | hostWrite y addr n v =>
      cases x <;> cases y <;>
        first
        | exact .inr (.inl ⟨addr, n, v, rest, rfl, rfl⟩)
        | exact .inr (.inr (.inr (.inr ⟨Endpoint.moved_refl _, by simp, by simp⟩)))
    | reset y =>
      cases x <;> cases y <;>
        first
        | exact .inr (.inr (.inl ⟨rest, rfl, rfl⟩))
        | exact .inr (.inr (.inr (.inr ⟨Endpoint.moved_refl _, by simp, by simp⟩)))
    | hostRead y addr n =>
      refine .inr (.inr (.inr (.inr ⟨?_, by simp, by simp⟩)))
      simp only [State.readTurn]
      split
      · cases x <;> cases y <;> exact ⟨rfl, le_rfl⟩
      · cases x <;> cases y <;> exact Endpoint.moved_refl _
    | clock y d =>
      cases x <;> cases y <;> exact .inr (.inr (.inr (.inr ⟨⟨rfl, le_rfl⟩, by simp, by simp⟩)))
    | noise y c =>
      cases lm <;> cases x <;> cases y <;>
        first
        | exact .inr (.inr (.inr (.inl ⟨c, rest, rfl, .inr (.inr ⟨rfl, rfl⟩)⟩)))
        | exact .inr (.inr (.inr (.inr ⟨⟨rfl, le_rfl⟩, by simp, by simp⟩)))
    | deliver y =>
      cases x <;> cases y <;> cases ha : a.outq <;> cases hb : b.outq <;>
        simp [State.lineDeliver, State.takeOut, ha, hb, Side.other, State.put, Endpoint.moved] <;>
        (cases a; cases b; simp_all)
    | lose y =>
      cases lm <;> cases x <;> cases y <;> cases ha : a.outq <;> cases hb : b.outq <;>
        simp [State.lineLose, State.takeOut, ha, hb, Side.other, State.put, Endpoint.moved] <;>
        (cases a; cases b; simp_all)
    | corrupt y c =>
      cases lm <;> cases x <;> cases y <;> cases ha : a.outq <;> cases hb : b.outq <;>
        simp [State.lineCorrupt, State.takeOut, ha, hb, Side.other, State.put, Endpoint.moved] <;>
        (cases a; cases b; simp_all)

end Sys2Proof.Machine
end

