-- ==== Sys2Proof/Tests/Slice0.lean ====
section
/-! SUPPORT. Tests: the well-formedness check, the decoder on words written out from 30_encoding.md, single steps with the
expected values of 95_test_vectors.md (the vector's label stands at each test), and one witness for the hypotheses of
every obligation that has some. -/

namespace Sys2Proof.Tests

open Sys2Proof Sys2Proof.Machine

/-! Small states. -/

/-- An endpoint right after reset: Receive phase, External policy, TIMEOUT 5000. -/
def rx : Endpoint := Endpoint.fresh Params.default 0

/-- An endpoint in Transmit phase with the first three payload bytes of V1.2. -/
def tx : Endpoint := { rx with phase := .transmit, outLen := 3, txData := [(0, 0x20), (1, 0x55), (2, 0x6D)] }

/-- The link with `e` as endpoint a and the events `evs` to come. -/
def link (e : Endpoint) (evs : List Event) : State := { State.reset with a := e, sched := evs }

/-- Endpoint a standing at `seq` with `inq` in its FIFO. -/
def at_ (e : Endpoint) (seq : Seq) (inq : List Byte) : Endpoint := { e with busy := true, seq := seq, inq := inq }

/-- The next state satisfies `p` at endpoint a. -/
def gives (o : Host.Outcome State Fault Refusal) (p : Endpoint → Bool) : Bool :=
  match o with
  | .next t => p t.a
  | .fault _ => false
  | .refused _ => false

/-- The engine's step of `e` satisfies `p`. -/
def engine (e : Endpoint) (p : Endpoint → Bool) : Bool := gives (step (link e [.engine .a])) p

/-- The host's write at `e` satisfies `p`; `HOST_BASE` is 0, so the physical address is the block's offset. -/
def write (e : Endpoint) (addr : Nat) (n : Width) (v : Word) (p : Endpoint → Bool) : Bool :=
  gives (step (link e [.hostWrite .a addr n v])) p

/-- The host's 4-byte read at `e` returns `v`. -/
def reads (e : Endpoint) (addr : Nat) (v : Word) : Bool :=
  gives (step (link e [.hostRead .a addr .w4])) (fun t => t.rdata == v)

/-! Well-formedness: the default rows do not stand for the bytes that other rows of their space name (R100, R101). -/

theorem test_wellFormed_refuses :
    (Instr.rxOther 0x05).wellFormed = false ∧ (Instr.rxOther 0x18).wellFormed = false ∧
      (Instr.txOther 0x06).wellFormed = false := by decide

theorem test_wellFormed_accepts :
    (Instr.rxOther 0x06).wellFormed = true ∧ (Instr.txOther 0x05).wellFormed = true ∧
      (Instr.txOther 0x18).wellFormed = true ∧ (Instr.reserved80 0x7F).wellFormed = true := by decide

/-! Decoding, every constructor by a word of the tables R91, R92, R100, R101, R102; CMD[31:8] ignored (R90). -/

theorem test_decode_work : decode .cmd [0x01, 0, 0, 0] = .ok .work ∧ decode .cmd [0x01, 0xFF, 0x5A, 0x80] = .ok .work := by
  decide

theorem test_decode_setTimeout : decode .cmd [0x02, 0, 0, 0] = .ok .setTimeout := by decide

/-- H15 writes 0x103. -/
theorem test_decode_setPhase : decode .cmd [0x03, 0x01, 0, 0] = .ok .setPhase := by decide

theorem test_decode_reserved00 : decode .cmd [0x00, 0x01, 0, 0] = .ok .reserved00 := by decide

theorem test_decode_reserved04 : decode .cmd [0x04, 0, 0, 0] = .ok (.reserved04 0) ∧
    decode .cmd [0x07, 0, 0, 0] = .ok (.reserved04 3) := by decide

theorem test_decode_reserved08 : decode .cmd [0x08, 0, 0, 0] = .ok (.reserved08 0) ∧
    decode .cmd [0x0F, 0, 0, 0] = .ok (.reserved08 7) := by decide

theorem test_decode_reserved10 : decode .cmd [0x10, 0, 0, 0] = .ok (.reserved10 0) ∧
    decode .cmd [0x1F, 0, 0, 0] = .ok (.reserved10 15) := by decide

theorem test_decode_reserved20 : decode .cmd [0x20, 0, 0, 0] = .ok (.reserved20 0) ∧
    decode .cmd [0x3F, 0, 0, 0] = .ok (.reserved20 31) := by decide

theorem test_decode_reserved40 : decode .cmd [0x40, 0, 0, 0] = .ok (.reserved40 0) ∧
    decode .cmd [0x7F, 0, 0, 0] = .ok (.reserved40 63) := by decide

theorem test_decode_reserved80 : decode .cmd [0x80, 0, 0, 0] = .ok (.reserved80 0) ∧
    decode .cmd [0xFE, 0, 0, 0] = .ok (.reserved80 0x7E) := by decide

theorem test_decode_enq : decode .rxFirst [0x05] = .ok .enq := by decide

theorem test_decode_can : decode .rxFirst [0x18] = .ok .can := by decide

theorem test_decode_rxOther : decode .rxFirst [0x06] = .ok (.rxOther 0x06) ∧
    decode .rxFirst [0x03] = .ok (.rxOther 0x03) := by decide

theorem test_decode_ack : decode .ackWait [0x06] = .ok .ack := by decide

theorem test_decode_txOther : decode .ackWait [0x05] = .ok (.txOther 0x05) ∧
    decode .ackWait [0x18] = .ok (.txOther 0x18) := by decide

theorem test_decode_sent : decode .emit [0x18] = .ok .sendCan ∧ decode .emit [0x05] = .ok .sendEnq ∧
    decode .emit [0x06] = .ok .sendAck := by decide

theorem test_decode_rejects : decode .emit [0x02] = .error (.notEmitted 0x02) ∧
    decode .cmd [0x01] = .error (.wrongLength .cmd 1) ∧ decode .rxFirst [] = .error (.wrongLength .rxFirst 0) := by decide

/-- The table's words of the rows that do not share their bits with a row of another space. -/
theorem test_tableWords :
    decodeTableWord 8 0x01 = some .work ∧ decodeTableWord 32 0x02 = some .setTimeout ∧
      decodeTableWord 8 0x03 = some .setPhase ∧ decodeTableWord 8 0x00 = some .reserved00 ∧
      decodeTableWord 8 0x04 = some (.reserved04 0) ∧ decodeTableWord 8 0x80 = some (.reserved80 0) ∧
      decodeTableWord 8 0x05 = some .enq ∧ decodeTableWord 8 0x18 = some .can ∧
      decodeTableWord 8 0x06 = some .ack ∧ decodeTableWord 32 0x05 = some (.reserved04 1) := by decide

theorem test_withFetchWord :
    step (State.reset.withFetchWord 8 0x03) = exec .setPhase State.reset ∧
      gives (step (State.reset.withFetchWord 8 0x05)) (fun e => e.seq == .rx3) = true ∧
      gives (step (State.reset.withFetchWord 8 0x06)) (fun e => e.seq == .tx4) = true := by
  refine ⟨rfl, ?_, ?_⟩ <;> decide

/-! Host commands. -/

/-- H16, TX-a: the accepting step. -/
theorem test_work_accepted :
    write rx 0x000 .w4 0x01 (fun t => t.busy && t.code == .none && t.seq == .wb0 .rx1) = true ∧
      write { tx with outLen := 0 } 0x000 .w4 0x01 (fun t => t.busy && t.seq == .tx1) = true ∧
      write tx 0x000 .w4 0x01 (fun t => t.busy && t.seq == .tx2) = true := by decide

/-- P4 (policy AutoToggle): the accepting step leads to W1. -/
theorem test_work_autoToggle :
    write { rx with params := { rx.params with policy := .autoToggle } } 0x000 .w4 0x01
      (fun t => t.busy && t.seq == .w1 && t.phase == .receive) = true := by decide

/-- The TIMEOUT that SET_TIMEOUT leaves, for a floor and an ARG. -/
def clamp (floor arg v : Word) : Bool :=
  write { rx with params := { rx.params with timeoutMinUs := floor }, arg := arg } 0x000 .w4 0x02
    (fun t => t.timeout == v && t.code == .none && !t.busy)

/-- T1 to T6. -/
theorem test_setTimeout_5000 :
    clamp 5000 0 5000 = true ∧ clamp 5000 10 5000 = true ∧ clamp 5000 4999 5000 = true ∧ clamp 5000 5000 5000 = true ∧
      clamp 5000 5001 5001 = true ∧ clamp 5000 0xFFFFFFFF 0xFFFFFFFF = true := by decide

/-- T7, T8. -/
theorem test_setTimeout_500 : clamp 500 10 500 = true ∧ clamp 500 4999 4999 = true := by decide

/-- H15. -/
theorem test_setPhase :
    write { rx with arg := 3 } 0x000 .w4 0x103 (fun t => t.phase == .transmit && t.wd == 0 && t.code == .none) = true ∧
      write { tx with arg := 2 } 0x000 .w4 0x03 (fun t => t.phase == .receive) = true := by decide

/-- H13, H14, and one code of each other reserved row. -/
theorem test_reserved :
    [0x00, 0x04, 0x09, 0x12, 0x25, 0x4A, 0xFF].all
      (fun v => write rx 0x000 .w4 v (fun t => t == { rx with code := .badCommand })) = true := by decide

/-- H17, H18: everything written during a WORK is ignored. -/
theorem test_busy_ignored :
    (write (at_ rx (.wb1 .rx1) []) 0x004 .w4 7 (fun t => t == at_ rx (.wb1 .rx1) []) &&
      write (at_ rx (.wb1 .rx1) []) 0x000 .w4 0x02 (fun t => t == at_ rx (.wb1 .rx1) []) &&
      write (at_ rx (.wb1 .rx1) []) 0x014 .w4 9 (fun t => t == at_ rx (.wb1 .rx1) []) &&
      write (at_ rx (.wb1 .rx1) []) 0x000 .w4 0x00 (fun t => t == at_ rx (.wb1 .rx1) [])) = true := by decide

/-! Wire bytes. -/

/-- RX-e: the ENQ, then the ACK. -/
theorem test_enq : engine (at_ rx (.rd .rx1) [0x05]) (fun t => t == at_ rx .rx3 []) = true := by decide

theorem test_sendAck :
    engine (at_ rx .rx3 []) (fun t => t == { at_ rx (.wb0 .rx4) [] with outq := [0x06] }) = true := by decide

/-- RX-b. -/
theorem test_can :
    engine (at_ rx (.rd .rx1) [0x18])
      (fun t => t == { rx with phase := .transmit, code := .peerCancelled }) = true := by decide

/-- RX-c and RX-d: one byte is discarded. -/
theorem test_rxOther :
    engine (at_ rx (.rd .rx1) [0x06, 0x05]) (fun t => t == { rx with code := .idleNoData, inq := [0x05] }) = true ∧
      engine (at_ rx (.rd .rx1) [0x02]) (fun t => t == { rx with code := .idleNoData }) = true := by decide

/-- TX-j: the first ACK is taken, the second stays. -/
theorem test_ack : engine (at_ tx (.rd .tx3) [0x06, 0x06]) (fun t => t == at_ tx .tx4 [0x06]) = true := by decide

/-- TX-c and TX-d. -/
theorem test_txOther :
    engine (at_ tx (.rd .tx3) [0x05]) (fun t => t == { tx with code := .ackTimeout }) = true ∧
      engine (at_ tx (.rd .tx3) [0x18]) (fun t => t == { tx with code := .ackTimeout }) = true := by decide

/-- TX-a. -/
theorem test_sendCan :
    engine (at_ { tx with outLen := 0 } .tx1 [0x06])
      (fun t => t.outq == [0x18] && t.phase == .receive && t.code == .nothingToSend && t.wd == 0 && t.inq == [0x06] &&
        !t.busy && t.seq == .idle) = true := by decide

/-- TX-b. -/
theorem test_sendEnq :
    engine (at_ tx .tx2 []) (fun t => t == { at_ tx (.wb0 .tx3) [] with outq := [0x05] }) = true := by decide

/-! The waits. -/

/-- The clock read that W1, W2, W4, W5 name, with no byte available: WSTART, the clock, whether the wait ends. -/
def poll (wstart : Word) (now : Nat) (ends : Bool) : Bool :=
  engine { at_ rx (.wb2 .rx1) [] with wstart := wstart, time := now }
    (fun t => if ends then t.code == .idleNoData && t.seq == .idle && !t.busy else t.seq == .wb1 .rx1 && t.busy)

/-- W1, W2, W4, W5. -/
theorem test_wait_clock :
    poll 100 5100 false = true ∧ poll 100 5101 true = true ∧ poll 0xFFFFFF00 0x1000 false = true ∧
      poll 0xFFFFFF00 0x1289 true = true := by decide

/-- W6 and W7: a byte at the poll ends the wait, with no clock read; WB0 reads the clock. -/
theorem test_wait_poll :
    engine { at_ rx (.wb1 .rx1) [0x05] with wstart := 100, time := 9999 } (fun t => t.seq == .rd .rx1) = true ∧
      engine (at_ rx (.wb1 .rx1) []) (fun t => t.seq == .wb2 .rx1) = true ∧
      engine { at_ rx (.wb0 .rx1) [] with time := 2 ^ 32 + 7 } (fun t => t.wstart == 7 && t.seq == .wb1 .rx1) = true := by
  decide

/-- W3: the late byte stays; RX-e to RX-g and TX-b: the status of each position. -/
theorem test_wait_timeout :
    [(Wait.rx1, Status.idleNoData), (.rx4, .lenTimeout), (.rx5, .payloadTimeout), (.rx7, .checksumTimeout),
        (.tx3, .ackTimeout)].all
      (fun p => engine { at_ rx (.wb2 p.1) [0x77] with wstart := 100, time := 5101 }
        (fun t => t.code == p.2 && t.inq == [0x77] && t.phase == .receive && t.seq == .idle)) = true := by decide

/-! The watchdog. -/

/-- An endpoint under AutoToggle. -/
def auto (e : Endpoint) : Endpoint := { e with params := { e.params with policy := .autoToggle } }

/-- W1 reads the clock, modulo 2^32, and the comparison is the next step's. -/
theorem test_watchdog_clock :
    engine { at_ (auto rx) .w1 [] with time := 2 ^ 32 + 1 }
      (fun t => t.t == 1 && t.seq == .toggle && t.wd == 0 && t.phase == .receive) = true := by decide

/-- The step after W1's clock read, with OUT_LEN = 0: WD, the clock value read, PHASE before; PHASE and WD after, seen by
the call of the path: the clock read of the wait, or CAN, which flips the Transmit phase. -/
def toggles (wd t : Word) (before after : Phase) (wd' : Word) : Bool :=
  engine { at_ (auto rx) .toggle [] with wd := wd, t := t, phase := before, time := 77 }
    (fun u => u.wd == wd' && u.phase == .receive &&
      (if after = .receive then u.seq == .wb1 .rx1 && u.wstart == 77 && u.outq == []
       else u.code == .nothingToSend && u.outq == [0x18] && u.seq == .idle))

/-- G1 to G5. -/
theorem test_watchdog :
    toggles 0 10000 .receive .receive 0 = true ∧ toggles 0 10001 .receive .transmit 10001 = true ∧
      toggles 0xFFFFD8F0 0 .transmit .transmit 0xFFFFD8F0 = true ∧
      toggles 0xFFFFD8F0 1 .transmit .receive 1 = true ∧ toggles 5 4 .receive .transmit 4 = true := by decide

/-- G6: under External the accepting step goes to the path. -/
theorem test_watchdog_external :
    write { rx with time := 10001 } 0x000 .w4 0x01 (fun t => t.phase == .receive && t.wd == 0 && t.seq == .wb0 .rx1) =
      true := by decide

/-! The data bytes. -/

/-- RX-e's length byte: read, then latched; and RX-j's: a zero length goes straight to the checksum wait. -/
theorem test_length :
    engine (at_ rx (.rd .rx4) [0x05]) (fun t => t == { at_ rx .latch [] with r := 5 }) = true ∧
      engine { at_ rx .latch [] with r := 5, len := 9, count := 9, time := 60 }
        (fun t => t.len == 5 && t.count == 0 && t.i == 0 && t.seq == .wb1 .rx5 && t.wstart == 60) = true ∧
      engine { at_ rx .latch [0x00] with r := 0, cksum := 0x77 }
        (fun t => t.len == 0 && t.cksum == 0 && t.seq == .wb1 .rx7 && t.inq == [0x00]) = true := by decide

/-- RX-f's second byte: read, then stored; and RX-m's third, which leads to the checksum. -/
theorem test_payload :
    engine { at_ rx (.rd .rx5) [0x22] with len := 4, i := 1, count := 1, frameBuf := [(0, 0x11)] }
        (fun t => t.frameBuf == [(0, 0x11)] && t.count == 1 && t.i == 1 && t.r == 0x22 && t.seq == .store) = true ∧
      engine { at_ rx .store [] with r := 0x22, len := 4, i := 1, count := 1, frameBuf := [(0, 0x11)], time := 60 }
        (fun t => t.frameBuf == [(0, 0x11), (1, 0x22)] && t.count == 2 && t.i == 2 && t.seq == .wb1 .rx5 &&
          t.wstart == 60) = true ∧
      engine { at_ rx .store [] with r := 0x0C, len := 3, i := 2, count := 2, frameBuf := [(0, 0x0A), (1, 0x0B)] }
        (fun t => t.cksum == 0x0D && t.count == 3 && t.seq == .wb1 .rx7) = true := by decide

/-- R7: the buffer has 500 bytes: its last byte is stored, an index past it is none of its bytes. -/
theorem test_capacity :
    (rx.storeFrame 499 0x7E).frameBuf = [(499, 0x7E)] ∧ (rx.storeFrame 500 0x7E).frameBuf = [] := by decide

/-- RX-h and RX-k, then RX-i. -/
theorem test_checksum :
    engine { at_ rx (.rd .rx7) [0x40] with cksum := 0x41, len := 1 }
        (fun t => t.code == .checksumMismatch && t.rxData == [] && t.rxLen == 0 && t.phase == .receive && !t.busy) = true ∧
      engine { at_ rx (.rd .rx7) [0x01] with cksum := 0 } (fun t => t.code == .checksumMismatch) = true ∧
      engine { at_ rx (.rd .rx7) [0x41] with cksum := 0x41, len := 1 } (fun t => t.seq == .rx8 && t.busy) = true := by
  decide

/-- RX-i and RX-j: completion at clock 500; a byte beyond the frame keeps its value (R150). -/
theorem test_applied :
    engine { at_ rx .rx8 [] with len := 1, frameBuf := [(0, 0x41)], rxData := [(0, 0x99), (1, 0x98)], time := 500 }
        (fun t => t.code == .frameApplied && t.rxData == [(0, 0x41), (1, 0x98)] && t.rxLen == 1 && t.wd == 500 &&
          t.phase == .transmit && t.seq == .idle) = true ∧
      engine { at_ rx .rx8 [] with len := 0, rxData := [(0, 0x99)], time := 500 }
        (fun t => t.code == .frameApplied && t.rxData == [(0, 0x99)] && t.rxLen == 0 && t.wd == 500) = true := by decide

/-- TX-g's bytes, for the first three payload bytes (their fold is 0x18, V1.1), and TX-e's completion at clock 700. -/
theorem test_transmit :
    engine (at_ tx .tx4 []) (fun t => t.outq == [0x03] && t.seq == .tx5 && t.i == 0) = true ∧
      engine { at_ tx .tx5 [] with i := 1 } (fun t => t.outq == [0x55] && t.seq == .tx5 && t.i == 2) = true ∧
      engine { at_ tx .tx5 [] with i := 2 } (fun t => t.outq == [0x6D] && t.seq == .tx6) = true ∧
      engine { at_ tx .tx6 [] with cksum := 0xEE } (fun t => t.outq == [0x18] && t.cksum == 0x18 && t.seq == .tx7) = true ∧
      engine { at_ tx .tx7 [] with time := 700 }
        (fun t => t.code == .frameTransmitted && t.phase == .receive && t.wd == 700 && t.outq == [] && !t.busy) = true := by
  decide

/-- X1 to X6, X9, X10. -/
theorem test_xorFold :
    [([], 0x00), ([0xFF], 0xFF), ([0xAA, 0xAA], 0x00), ([0x01, 0x02, 0x04, 0x08], 0x0F),
        ([0x20, 0x55, 0x6D, 0x4B, 0x31], 0x62), ([0x05, 0x06, 0x18], 0x1B), ([0xF0, 0x0F], 0xFF),
        ([0x0A, 0x0B, 0x0C], 0x0D)].all
      (fun p : List Byte × Byte => xorFold (fun k => p.1.getD k 0) p.1.length == p.2) = true := by decide

/-! The host port. -/

/-- H1 to H6. -/
theorem test_host_reset_reads :
    (reads rx 0x008 0xFF && reads rx 0x010 0x1388 && reads rx 0x00C 0 &&
      reads { tx with params := { tx.params with policy := .autoToggle } } 0x00C 3 && reads rx 0x000 0 &&
      reads rx 0x004 0 && reads rx 0x014 0 && reads rx 0x018 0 && reads rx 0x020 0 && reads rx 0x300 0 &&
      reads rx 0x009 0) = true := by decide

/-- H7, H8, H12. -/
theorem test_host_registers :
    (write rx 0x014 .w4 0x1FF (fun t => t.outLen == 0xFF && reads t 0x014 0xFF) &&
      write rx 0x014 .w1 0x03 (fun t => t == rx) && write rx 0x008 .w4 0 (fun t => t == rx)) = true := by decide

/-- H9, H10, H11, and R64 on narrower accesses. -/
theorem test_host_windows :
    (write rx 0x100 .w4 0x44332211 (fun t => t.txData == [(0, 0x11), (1, 0x22), (2, 0x33), (3, 0x44)] &&
        reads t 0x100 0x44332211 && t.memRead 0 0x102 .w2 == 0x4433 && t.memRead 0 0x103 .w1 == 0x44) &&
      write rx 0x102 .w4 0x12345678 (fun t => t == rx) && write rx 0x200 .w4 0x12345678 (fun t => t == rx) &&
      write rx 0x1FE .w2 0x0201 (fun t => t.txData == [(254, 0x01), (255, 0x02)])) = true := by decide

/-- H16: STATUS while BUSY = 1. -/
theorem test_host_busy_status : reads (at_ rx (.wb1 .rx1) []) 0x008 0x1FF = true := by decide

/-- R61: at another `HOST_BASE` the same offsets answer at their physical addresses, and no address below or past the
block's 1024. -/
theorem test_host_base :
    (let e : Endpoint := { rx with params := { rx.params with hostBase := 0x40000000 }, rdata := 0x55 }
     reads e 0x40000010 0x1388 && reads e 0x010 0x55 && reads e 0x40000410 0x55 &&
       write e 0x40000000 .w4 0x01 (fun t => t.busy) && write e 0x000 .w4 0x01 (fun t => t == e) &&
       write e 0x400003FC .w4 0x01 (fun t => t == e) && write e 0x40000400 .w4 0x01 (fun t => t == e)) = true := by decide

/-! Reset, the line and the clock. -/

/-- Z1 and Z3. -/
theorem test_reset :
    gives (step (link { tx with time := 1234, arg := 7, code := .frameApplied, inq := [0x05], outq := [0x06] } [.reset .a]))
      (fun t => t.wd == 1234 && t.phase == .receive && t.timeout == 5000 && t.code == .none && t.arg == 0 && t.outLen == 0 &&
        t.rxLen == 0 && t.txData == [] && t.inq == [0x05] && t.outq == [0x06]) = true := by decide

/-- V1.4: the line flips bit 0 of the checksum byte; an Ideal line does not. -/
theorem test_line :
    gives (step { link rx [.corrupt .b 0x63] with linkModel := .lossy, b := { rx with outq := [0x62] } })
        (fun t => t.inq == [0x63]) = true ∧
      gives (step { link rx [.corrupt .b 0x63] with b := { rx with outq := [0x62] } }) (fun t => t.inq == []) = true ∧
      gives (step { link rx [.deliver .b] with b := { rx with outq := [0x62, 0x05] } }) (fun t => t.inq == [0x62]) =
        true := by decide

/-- R224's worked example: T = 2^32 + 7 reads 7. -/
theorem test_clock : gives (step (link { rx with time := 2 ^ 32 } [.clock .a 7])) (fun t => t.clock == 7) = true := by decide

/-- With no event to come no agent moves (log 1). -/
theorem test_no_event : step State.reset = .next State.reset := rfl

/-! Witnesses: for every obligation with hypotheses, states and operands that meet all of them, each clause at its
boundaries. Each is named after the obligation. -/

theorem witness_DecodeEncodeRoundTrip : (Instr.rxOther 0x06).wellFormed = true ∧ (Instr.txOther 0xFF).wellFormed = true ∧
    (Instr.reserved04 3).wellFormed = true ∧ Instr.sendAck.wellFormed = true := by decide

theorem witness_CommandWordIsToldByItsLowByte :
    (byteOf 0x100 0 ≠ 0x01 ∧ byteOf 0x100 0 ≠ 0x02 ∧ byteOf 0x100 0 ≠ 0x03) ∧
      (byteOf 0x04 0 ≠ 0x01 ∧ byteOf 0x04 0 ≠ 0x02 ∧ byteOf 0x04 0 ≠ 0x03) := by decide

theorem witness_WireByteMeaningDependsOnPosition :
    ((0x06 : Byte) ≠ 0x05 ∧ (0x06 : Byte) ≠ 0x18) ∧ (0x05 : Byte) ≠ 0x06 := by decide

theorem witness_StepRunsTheCommandWritten :
    (link rx [.hostWrite .a 0x000 .w4 0x103]).sched =
      .hostWrite .a (((link rx []).get .a).hostAddr Config.offCmd) .w4 0x103 :: [] := rfl

/-- The wire bytes read, then the bytes sent; the last of them in the step that begins with the watchdog's toggle. -/
theorem witness_StepRunsTheWireByteDecoded :
    ((link (at_ rx (.rd .rx1) [0x18]) [.engine .a]).sched = .engine .a :: [] ∧
      fetchEngine ((link (at_ rx (.rd .rx1) [0x18]) [.engine .a]).get .a).settle = some (.rxFirst, [0x18]) ∧
      decode .rxFirst [0x18] = .ok .can) ∧
    (fetchEngine ((link (at_ tx (.rd .tx3) [0x18]) [.engine .a]).get .a).settle = some (.ackWait, [0x18]) ∧
      decode .ackWait [0x18] = .ok (.txOther 0x18)) ∧
    (fetchEngine ((link (at_ tx .tx1 []) [.engine .a]).get .a).settle = some (.emit, [0x18]) ∧
      decode .emit [0x18] = .ok .sendCan) ∧
    (fetchEngine ((link { at_ (auto rx) .toggle [] with t := 10001, outLen := 1 } [.engine .a]).get .a).settle =
        some (.emit, [0x05]) ∧ decode .emit [0x05] = .ok .sendEnq) := by decide

theorem witness_ControlPositionsGiveTheirByte :
    ((at_ rx (.rd .rx1) [0x05]).seq = .rd .rx1 ∧ (at_ rx (.rd .rx1) [0x05]).inq = 0x05 :: []) ∧
    ((at_ tx (.rd .tx3) [0x05]).seq = .rd .tx3 ∧ (at_ tx (.rd .tx3) [0x05]).inq = 0x05 :: []) ∧
    (at_ tx .tx1 []).seq = .tx1 ∧ (at_ tx .tx2 []).seq = .tx2 ∧ (at_ rx .rx3 []).seq = .rx3 ∧
    ((at_ rx .w1 []).seq ≠ .toggle ∧ (at_ rx .w1 []).seq ≠ .latch ∧ (at_ rx .w1 []).seq ≠ .store) := by decide

/-- Both phases, both values of "OUT_LEN = 0", both policies. -/
theorem witness_WorkIsAccepted :
    (link rx []).cur.busy = false ∧ (link tx []).cur.busy = false ∧ (link { tx with outLen := 0 } []).cur.busy = false ∧
      (link { rx with params := { rx.params with policy := .autoToggle } } []).cur.busy = false := by decide

theorem witness_SetTimeoutClampsToTheFloor : (link { rx with arg := 4999 } []).cur.busy = false ∧
    (link { rx with arg := 5000 } []).cur.busy = false := by decide

theorem witness_SetPhaseForcesThePhase : (link { rx with arg := 1 } []).cur.busy = false ∧
    (link { tx with arg := 0xFFFFFFFE } []).cur.busy = false := by decide

/-- One instruction of every reserved row. -/
theorem witness_ReservedCodesSetBadCommand :
    (link rx []).cur.busy = false ∧
    ∀ i ∈ [Instr.reserved00, .reserved04 3, .reserved08 7, .reserved10 15, .reserved20 31, .reserved40 63,
        .reserved80 127],
      i = .reserved00 ∨ (∃ x, i = .reserved04 x) ∨ (∃ x, i = .reserved08 x) ∨ (∃ x, i = .reserved10 x) ∨
        (∃ x, i = .reserved20 x) ∨ (∃ x, i = .reserved40 x) ∨ (∃ x, i = .reserved80 x) := by
  refine ⟨rfl, ?_⟩
  simp

theorem witness_HandshakeBytesLeadOn :
    ((link (at_ rx (.rd .rx1) [0x05]) []).cur.inq = 0x05 :: [] ∧ (link (at_ rx (.rd .rx1) [0x05]) []).cur.seq = .rd .rx1) ∧
    ((link (at_ tx (.rd .tx3) [0x06, 0x06]) []).cur.inq = 0x06 :: [0x06] ∧
      (link (at_ tx (.rd .tx3) [0x06, 0x06]) []).cur.seq = .rd .tx3) := by decide

theorem witness_CanFlipsToTransmit :
    (link (at_ rx (.rd .rx1) [0x18]) []).cur.seq = .rd .rx1 ∧ (link (at_ rx (.rd .rx1) [0x18]) []).cur.inq = 0x18 :: [] := by
  decide

theorem witness_OtherFirstByteIsDiscarded :
    (link (at_ rx (.rd .rx1) [0x06, 0x05]) []).cur.seq = .rd .rx1 ∧
      (link (at_ rx (.rd .rx1) [0x06, 0x05]) []).cur.inq = 0x06 :: [0x05] := by decide

theorem witness_OtherByteAfterEnqEndsTheCommand :
    (link (at_ tx (.rd .tx3) [0x05]) []).cur.seq = .rd .tx3 ∧ (link (at_ tx (.rd .tx3) [0x05]) []).cur.inq = 0x05 :: [] := by
  decide

theorem witness_NothingToSendSendsCan : (link (at_ { tx with outLen := 0 } .tx1 [0x06]) []).cur.seq = .tx1 := by decide

theorem witness_HandshakeBytesAreSentThenAnswered :
    (link (at_ tx .tx2 []) []).cur.seq = .tx2 ∧ (link (at_ rx .rx3 []) []).cur.seq = .rx3 := by decide

/-- Idle is no position of a wire byte; the two read positions with an empty FIFO. -/
theorem witness_WireBytesStopOffPosition :
    ((link rx []).cur.seq ≠ .rd .rx1 ∧ (link rx []).cur.seq ≠ .rd .tx3 ∧ (link rx []).cur.seq ≠ .tx1 ∧
      (link rx []).cur.seq ≠ .tx2 ∧ (link rx []).cur.seq ≠ .rx3) ∧
    ((link (at_ rx (.rd .rx1) []) []).cur.seq = .rd .rx1 ∧ (link (at_ rx (.rd .rx1) []) []).cur.inq = []) ∧
    ((link (at_ tx (.rd .tx3) []) []).cur.seq = .rd .tx3 ∧ (link (at_ tx (.rd .tx3) []) []).cur.inq = []) := by decide

/-- Every instruction answers a next state somewhere. -/
theorem witness_InstructionsLeaveTheRestUnchanged :
    (∀ i ∈ [Instr.work, .setTimeout, .setPhase, .reserved00, .reserved04 1, .reserved08 1, .reserved10 1, .reserved20 1,
        .reserved40 1, .reserved80 1], ∃ t, exec i (link rx []) = .next t) ∧
    (∀ i ∈ [Instr.enq, .can, .rxOther 0x02], ∃ t, exec i (link (at_ rx (.rd .rx1) [0x02]) []) = .next t) ∧
    (∀ i ∈ [Instr.ack, .txOther 0x02], ∃ t, exec i (link (at_ tx (.rd .tx3) [0x02]) []) = .next t) ∧
    (∃ t, exec .sendCan (link (at_ tx .tx1 []) []) = .next t) ∧
    (∃ t, exec .sendEnq (link (at_ tx .tx2 []) []) = .next t) ∧
    (∃ t, exec .sendAck (link (at_ rx .rx3 []) []) = .next t) := by
  refine ⟨?_, ?_, ?_, ⟨_, rfl⟩, ⟨_, rfl⟩, ⟨_, rfl⟩⟩ <;>
    simp only [List.forall_mem_cons, List.not_mem_nil, false_imp_iff, implies_true, and_true]
  · exact ⟨⟨_, rfl⟩, ⟨_, rfl⟩, ⟨_, rfl⟩, ⟨_, rfl⟩, ⟨_, rfl⟩, ⟨_, rfl⟩, ⟨_, rfl⟩, ⟨_, rfl⟩, ⟨_, rfl⟩, ⟨_, rfl⟩⟩
  · exact ⟨⟨_, rfl⟩, ⟨_, rfl⟩, ⟨_, rfl⟩⟩
  · exact ⟨⟨_, rfl⟩, ⟨_, rfl⟩⟩

/-- A command of each kind, accepted and ignored. -/
theorem witness_CommandsWriteTheirFieldOnly :
    ∀ w ∈ [(0x00 : Word), 0x01, 0x02, 0x03, 0xFF],
      (∃ t, exec (decodeCmd w) (link rx []) = .next t) ∧
      (∃ t, exec (decodeCmd w) (link (at_ rx (.wb1 .rx1) []) []) = .next t) := by
  simp only [List.forall_mem_cons, List.not_mem_nil, false_imp_iff, implies_true, and_true]
  exact ⟨⟨⟨_, rfl⟩, ⟨_, rfl⟩⟩, ⟨⟨_, rfl⟩, ⟨_, rfl⟩⟩, ⟨⟨_, rfl⟩, ⟨_, rfl⟩⟩, ⟨⟨_, rfl⟩, ⟨_, rfl⟩⟩, ⟨⟨_, rfl⟩, ⟨_, rfl⟩⟩⟩

theorem witness_WireReadsConsumeOneByte :
    (∀ i ∈ [Instr.enq, .can, .rxOther 0x02], i ∈ [Instr.enq, .can, .rxOther 0x02, .ack, .txOther 0x02] ∧
      ∃ t, exec i (link (at_ rx (.rd .rx1) [0x02]) []) = .next t) ∧
    (∀ i ∈ [Instr.ack, .txOther 0x02], i ∈ [Instr.enq, .can, .rxOther 0x02, .ack, .txOther 0x02] ∧
      ∃ t, exec i (link (at_ tx (.rd .tx3) [0x02]) []) = .next t) := by
  refine ⟨?_, ?_⟩ <;> simp only [List.forall_mem_cons, List.not_mem_nil, false_imp_iff, implies_true, and_true]
  · exact ⟨⟨by decide, _, rfl⟩, ⟨by decide, _, rfl⟩, ⟨by decide, _, rfl⟩⟩
  · exact ⟨⟨by decide, _, rfl⟩, ⟨by decide, _, rfl⟩⟩

theorem witness_WireEmitsAppendOneByte :
    (Instr.sendCan ∈ [Instr.sendCan, .sendEnq, .sendAck] ∧ ∃ t, exec .sendCan (link (at_ tx .tx1 []) []) = .next t) ∧
    (Instr.sendEnq ∈ [Instr.sendCan, .sendEnq, .sendAck] ∧ ∃ t, exec .sendEnq (link (at_ tx .tx2 []) []) = .next t) ∧
    (Instr.sendAck ∈ [Instr.sendCan, .sendEnq, .sendAck] ∧ ∃ t, exec .sendAck (link (at_ rx .rx3 []) []) = .next t) :=
  ⟨⟨by decide, _, rfl⟩, ⟨by decide, _, rfl⟩, ⟨by decide, _, rfl⟩⟩

/-- A step of the engine at endpoint a, for the statements made with `engineGives`. -/
theorem witness_engineGives : (link rx [.engine .a, .clock .a 1]).sched = .engine .a :: [.clock .a 1] := rfl

/-- W1's clock difference is TIMEOUT exactly; with TIMEOUT = 0xFFFFFFFF the greatest difference there is. -/
theorem witness_WaitPollsTheByteBeforeTheClock :
    ((link (at_ rx (.wb0 .tx3) []) []).get .a).seq = .wb0 .tx3 ∧
    (((link (at_ rx (.wb1 .rx1) [0x05]) []).get .a).seq = .wb1 .rx1 ∧ ((link (at_ rx (.wb1 .rx1) [0x05]) []).get .a).inq ≠ []) ∧
    (((link (at_ rx (.wb1 .rx1) []) []).get .a).seq = .wb1 .rx1 ∧ ((link (at_ rx (.wb1 .rx1) []) []).get .a).inq = []) ∧
    ((at_ rx (.wb2 .rx1) []).seq = .wb2 .rx1 ∧ (BitVec.ofNat 32 5100 - (100 : Word)).toNat ≤ (at_ rx (.wb2 .rx1) []).timeout.toNat) ∧
    ({ at_ rx (.wb2 .rx1) [] with wstart := 1, timeout := 0xFFFFFFFF }.seq = .wb2 .rx1 ∧
      { at_ rx (.wb2 .rx1) [] with wstart := 1, timeout := 0xFFFFFFFF }.timeout = 0xFFFFFFFF) := by decide

/-- W2: one microsecond more. -/
theorem witness_WaitTimeoutEndsTheCommand :
    ((link { at_ rx (.wb2 .rx7) [] with wstart := 100, time := 5101 } []).get .a).seq = .wb2 .rx7 ∧
      ((link { at_ rx (.wb2 .rx7) [] with wstart := 100, time := 5101 } []).get .a).timeout.toNat <
        (BitVec.ofNat 32 ((link { at_ rx (.wb2 .rx7) [] with wstart := 100, time := 5101 } []).get .a).time -
          ((link { at_ rx (.wb2 .rx7) [] with wstart := 100, time := 5101 } []).get .a).wstart).toNat := by decide

theorem witness_LengthByteIsLatched :
    (((link (at_ rx (.rd .rx4) [0x00, 0x00]) []).get .a).seq = .rd .rx4 ∧
      ((link (at_ rx (.rd .rx4) [0x00, 0x00]) []).get .a).inq = 0x00 :: [0x00]) ∧
    (((link (at_ rx .latch []) []).get .a).seq = .latch ∧ ((link (at_ rx .latch []) []).get .a).r = 0) ∧
    (((link { at_ rx .latch [] with r := 1 } []).get .a).seq = .latch ∧
      ((link { at_ rx .latch [] with r := 1 } []).get .a).r ≠ 0) := by decide

/-- Endpoint a with payload byte `i` of `len` read. -/
def payloadAt (len : Byte) (i : BitVec 9) : Endpoint := { at_ rx .store [] with r := 0x18, len := len, i := i }

/-- A payload byte read; the first byte of a longer payload, and the last byte of the longest one, stored. -/
theorem witness_PayloadByteIsStored :
    (((link (at_ rx (.rd .rx5) [0x18]) []).get .a).seq = .rd .rx5 ∧
      ((link (at_ rx (.rd .rx5) [0x18]) []).get .a).inq = 0x18 :: []) ∧
    ∀ e ∈ [payloadAt 4 0, payloadAt 255 254],
      (link e [.engine .a]).sched = .engine .a :: [] ∧ ((link e [.engine .a]).get .a).seq = .store ∧
        ((link e [.engine .a]).get .a).i.toNat < ((link e [.engine .a]).get .a).len.toNat := by decide

theorem witness_ChecksumByteIsCompared :
    ((at_ rx (.rd .rx7) [0x01]).seq = .rd .rx7 ∧ (at_ rx (.rd .rx7) [0x01]).inq = 0x01 :: [] ∧
      (0x01 : Byte) ≠ (at_ rx (.rd .rx7) [0x01]).cksum) ∧
    ((at_ rx (.rd .rx7) [0x00]).seq = .rd .rx7 ∧ (at_ rx (.rd .rx7) [0x00]).inq = 0x00 :: [] ∧
      (0x00 : Byte) = (at_ rx (.rd .rx7) [0x00]).cksum) := by decide

/-- The empty frame and the longest one. -/
theorem witness_FrameAppliedCopiesTheFrame :
    ∀ n ∈ [(0 : Byte), 255],
      (link { at_ rx .rx8 [] with len := n } [.engine .a]).sched = .engine .a :: [] ∧
        ((link { at_ rx .rx8 [] with len := n } [.engine .a]).get .a).seq = .rx8 := by decide

/-- The PHASE held after the watchdog's comparison, as the statement computes it. -/
def phaseHeld (e : Endpoint) : Phase :=
  if e.params.toggleIntervalUs.toNat < (e.t - e.wd).toNat then (if e.phase = .receive then .transmit else .receive) else e.phase

/-- W1's clock read; then, the interval just reached and just passed, each of the three first calls. -/
theorem witness_WatchdogTogglesPastTheInterval :
    ((link (at_ (auto rx) .w1 []) []).get .a).seq = .w1 ∧
      (∀ e ∈ [{ at_ (auto rx) .toggle [] with t := 10000 }, { at_ (auto tx) .toggle [] with t := 10001 }],
        e.seq = .toggle ∧ phaseHeld e = .receive) ∧
      (∀ e ∈ [{ at_ (auto tx) .toggle [] with t := 10000 }, { at_ (auto rx) .toggle [] with t := 10001, outLen := 255 }],
        e.seq = .toggle ∧ phaseHeld e = .transmit ∧ e.outLen ≠ 0) ∧
      (∀ e ∈ [{ at_ (auto rx) .toggle [] with t := 10001 }],
        e.seq = .toggle ∧ phaseHeld e = .transmit ∧ e.outLen = 0) := by decide

/-- The lengths 1 and 255, the first and the last payload byte. -/
theorem witness_FrameBytesAreSentInOrder :
    ((at_ { tx with outLen := 1 } .tx4 []).seq = .tx4 ∧ (at_ { tx with outLen := 1 } .tx4 []).outLen ≠ 0) ∧
    ((at_ { tx with i := 0 } .tx5 []).seq = .tx5 ∧ (at_ { tx with i := 0 } .tx5 []).i.toNat < tx.outLen.toNat) ∧
    ((at_ { tx with i := 2 } .tx5 []).seq = .tx5 ∧ (at_ { tx with i := 2 } .tx5 []).i.toNat < tx.outLen.toNat) ∧
    (at_ tx .tx6 []).seq = .tx6 := by decide

theorem witness_FrameTransmittedFlipsToReceive : ((link (at_ tx .tx7 []) []).get .a).seq = .tx7 := by decide

theorem witness_IdleEngineDoesNothing : ((link { tx with inq := [0x05] } []).get .a).seq = .idle := by decide

/-- Two different functions that agree below 2; two orders of three bytes. -/
theorem witness_XorFoldDependsOnTheBytesAlone :
    (∀ k, k < 2 → (fun _ => (0x41 : Byte)) k = (fun j => if j < 2 then (0x41 : Byte) else 0x00) k) ∧
      List.Perm [(0x0A : Byte), 0x0B, 0x0C] [0x0C, 0x0A, 0x0B] := by decide

/-- The first and the last register, by every width, the engine idle; STATUS while it runs. -/
theorem witness_HostReadsTheRegisters :
    { rx with rxLen := 0xFF }.busy = false ∧
      (∀ p ∈ [((0x000 : BitVec 10), Width.w4), (0x009, .w1), (0x00A, .w2), (0x018, .w4), (0x01B, .w1)],
        p.1.toNat % p.2.bytes = 0 ∧ p.1.toNat < 0x01C) ∧
      ((at_ rx .w1 []).busy = true ∧ (0x017 : BitVec 10).toNat < 0x018 ∧ (3 : Nat) < 4) := by decide

/-- Misaligned by one; the reserved ranges' first and last offsets. -/
theorem witness_MisalignedAndReservedReadsReturnZero :
    (0x009 : BitVec 10).toNat % Width.w4.bytes ≠ 0 ∧ (0x101 : BitVec 10).toNat % Width.w2.bytes ≠ 0 ∧
      (0x01C ≤ (0x01C : BitVec 10).toNat ∧ (0x01C : BitVec 10).toNat < 0x100) ∧
      (0x01C ≤ (0x0FF : BitVec 10).toNat ∧ (0x0FF : BitVec 10).toNat < 0x100) ∧
      0x300 ≤ (0x300 : BitVec 10).toNat ∧ 0x300 ≤ (0x3FF : BitVec 10).toNat := by decide

/-- The windows' first and last accesses. -/
theorem witness_WindowReadsAreLittleEndian :
    ((0x100 : BitVec 10).toNat % Width.w4.bytes = 0 ∧ 0x100 ≤ (0x100 : BitVec 10).toNat ∧ (0x100 : BitVec 10).toNat < 0x200) ∧
      ((0x1FC : BitVec 10).toNat % Width.w4.bytes = 0 ∧ 0x100 ≤ (0x1FC : BitVec 10).toNat ∧ (0x1FC : BitVec 10).toNat < 0x200) ∧
      ((0x200 : BitVec 10).toNat % Width.w4.bytes = 0 ∧ 0x200 ≤ (0x200 : BitVec 10).toNat ∧ (0x200 : BitVec 10).toNat < 0x300) ∧
      ((0x2FF : BitVec 10).toNat % Width.w1.bytes = 0 ∧ 0x200 ≤ (0x2FF : BitVec 10).toNat ∧ (0x2FF : BitVec 10).toNat < 0x300) ∧
      (3 : Nat) < 4 ∧ rx.busy = false := by decide

/-- The 4-byte read of RX_LEN and the widest and narrowest accesses at the window's ends, while the engine runs. -/
theorem witness_BusyResultReadsAreDraws :
    (at_ rx (.wb1 .rx1) []).busy = true ∧ (3 : Nat) < 4 ∧
      ∀ p ∈ [((0x018 : BitVec 10), Width.w4), (0x01B, .w1), (0x200, .w4), (0x200, .w2), (0x2FC, .w4), (0x2FF, .w1)],
        p.1.toNat % p.2.bytes = 0 ∧
          (0x200 ≤ p.1.toNat ∧ p.1.toNat < 0x300 ∨ 0x018 ≤ p.1.toNat ∧ p.1.toNat < 0x01C) := by decide

/-- At the default `HOST_BASE` a register's physical address is its offset. -/
theorem witness_HostReadChangesNothing :
    (link (at_ rx (.wb1 .rx1) []) [.hostRead .a 0x200 .w4]).sched =
      .hostRead .a (((link (at_ rx (.wb1 .rx1) []) []).get .a).hostAddr 0x200) .w4 :: [] := rfl

theorem witness_RegisterWritesStore :
    (((link rx [.hostWrite .a 0x004 .w4 7]).get .a).busy = false ∧
      (link rx [.hostWrite .a 0x004 .w4 7]).sched = .hostWrite .a (((link rx []).get .a).hostAddr 0x004) .w4 7 :: []) ∧
    (((link rx [.hostWrite .a 0x014 .w4 0x1FF]).get .a).busy = false ∧
      (link rx [.hostWrite .a 0x014 .w4 0x1FF]).sched =
        .hostWrite .a (((link rx []).get .a).hostAddr 0x014) .w4 0x1FF :: []) := by decide

/-- Endpoint a with its block at 0x1000. -/
def based : Endpoint := { rx with params := { rx.params with hostBase := 0x1000 } }

/-- A byte write of a register (H8), a read-only register (H12), a misaligned TX_DATA write (H10), RX_DATA (H11); the
addresses next below the block and next above it, written and read. -/
theorem witness_OtherWritesAreIgnored :
    (link rx [.hostWrite .a 0x014 .w1 3]).sched = .hostWrite .a (((link rx []).get .a).hostAddr 0x014) .w1 3 :: [] ∧
    ((0x014 : BitVec 10).toNat < 0x100 ∧
      ¬ (Width.w1 = .w4 ∧ ((0x014 : BitVec 10) = 0x000 ∨ (0x014 : BitVec 10) = 0x004 ∨ (0x014 : BitVec 10) = 0x014))) ∧
    ((0x008 : BitVec 10).toNat < 0x100 ∧
      ¬ (Width.w4 = .w4 ∧ ((0x008 : BitVec 10) = 0x000 ∨ (0x008 : BitVec 10) = 0x004 ∨ (0x008 : BitVec 10) = 0x014))) ∧
    (0x102 : BitVec 10).toNat % Width.w4.bytes ≠ 0 ∧ 0x200 ≤ (0x200 : BitVec 10).toNat ∧
    (((0xFFF : Nat) < ((link based []).get .a).params.hostBase ∧
      (link based [.hostWrite .a 0xFFF .w1 3]).sched = .hostWrite .a 0xFFF .w1 3 :: []) ∧
     (((link based []).get .a).params.hostBase + 1024 ≤ 0x1400 ∧
      (link based [.hostRead .a 0x1400 .w4]).sched = .hostRead .a 0x1400 .w4 :: [])) := by decide

/-- The window's first word and last byte. -/
theorem witness_TxWindowWriteStoresItsBytes :
    ((link rx [.hostWrite .a 0x100 .w4 0x44332211]).sched =
        .hostWrite .a (((link rx []).get .a).hostAddr 0x100) .w4 0x44332211 :: [] ∧
      ((link rx [.hostWrite .a 0x100 .w4 0x44332211]).get .a).busy = false ∧ 0x100 ≤ (0x100 : BitVec 10).toNat ∧
      (0x100 : BitVec 10).toNat < 0x200 ∧ (0x100 : BitVec 10).toNat % Width.w4.bytes = 0) ∧
    ((link rx [.hostWrite .a 0x1FF .w1 1]).sched =
        .hostWrite .a (((link rx []).get .a).hostAddr 0x1FF) .w1 1 :: [] ∧
      ((link rx [.hostWrite .a 0x1FF .w1 1]).get .a).busy = false ∧ 0x100 ≤ (0x1FF : BitVec 10).toNat ∧
      (0x1FF : BitVec 10).toNat < 0x200 ∧ (0x1FF : BitVec 10).toNat % Width.w1.bytes = 0) := by decide

theorem witness_BusyWritesAreLost :
    (link (at_ rx (.wb1 .rx1) []) [.hostWrite .a 0x000 .w4 2]).sched = .hostWrite .a 0x000 .w4 2 :: [] ∧
      ((link (at_ rx (.wb1 .rx1) []) [.hostWrite .a 0x000 .w4 2]).get .a).busy = true := by decide

/-- Endpoint a with bytes on their way, a Lossy line. -/
def lossy (evs : List Event) : State := { link { tx with outq := [0x05, 0x03] } evs with linkModel := .lossy }

/-- Each move of an outbound byte; and a noise byte at an endpoint with nothing outbound. -/
theorem witness_LineStepsMoveTheOldestByte :
    (∀ ev ∈ [Event.deliver .a, .lose .a, .corrupt .a 0x04],
      ((lossy [ev]).get .a).outq = 0x05 :: [0x03] ∧ (lossy [ev]).linkModel = .lossy ∧ (lossy [ev]).sched = ev :: []) ∧
    (((lossy [.noise .b 0x04]).get .b).outq = [] ∧ (lossy [.noise .b 0x04]).linkModel = .lossy ∧
      (lossy [.noise .b 0x04]).sched = .noise .b 0x04 :: []) := by decide

theorem witness_InboundFifoChangesOneWay : ∃ t, step (lossy [.deliver .a]) = .next t := ⟨_, rfl⟩

theorem witness_ClockAdvancesAndWraps :
    (link { rx with time := 2 ^ 32 } [.clock .a 7]).sched = .clock .a 7 :: [] := rfl

/-- A reset in the middle of a WORK. -/
theorem witness_ResetSetsEveryField :
    (link (at_ rx (.wb1 .rx5) [0x33]) [.reset .a]).sched = .reset .a :: [] := rfl

/-! Sound states. -/

/-- Endpoint a about to read a CAN. -/
def soundRx : Endpoint := at_ rx (.rd .rx1) [0x18]

/-- Endpoint b about to send CAN. -/
def soundTx : Endpoint := { at_ { tx with outLen := 0 } .tx1 [] with epoch := 1 }

theorem soundRx_sound : soundRx.Sound where
  legal := .inl rfl
  floor := by decide
  idle := by decide
  form := by decide
  bounds := by simp [soundRx, at_, rx, Endpoint.fresh, Memory.below]
  position := ⟨rfl, by decide⟩

theorem soundTx_sound : soundTx.Sound where
  legal := .inl rfl
  floor := by decide
  idle := by decide
  form := by decide
  bounds := by simp [soundTx, at_, tx, rx, Endpoint.fresh, Memory.below]
  position := ⟨rfl, rfl⟩

/-- Both of them on one link. -/
def soundLink (evs : List Event) : State := { State.reset with a := soundRx, b := soundTx, sched := evs }

theorem soundLink_sound (evs : List Event) : (soundLink evs).Sound where
  a := soundRx_sound
  b := soundTx_sound
  draws := show (0 : Nat) ≠ 1 ∧ 0 < 2 ∧ 1 < 2 by decide

/-- Steps of the engine, the host and the reset. -/
theorem witness_EveryStepKeepsTheLinkSound :
    ∀ ev ∈ [Event.engine .a, .engine .b, .hostRead .a 0x018 .w4, .hostWrite .b 0x100 .w4 7, .reset .a],
      (soundLink [ev]).Sound ∧ ∃ t, step (soundLink [ev]) = .next t := by
  intro ev hev
  refine ⟨soundLink_sound _, ?_⟩
  simp only [List.mem_cons, List.not_mem_nil, or_false] at hev
  rcases hev with rfl | rfl | rfl | rfl | rfl <;> exact ⟨_, rfl⟩

/-- Endpoint a at the watchdog's comparison, the interval just passed. -/
def soundToggle : Endpoint := { at_ (auto rx) .toggle [] with t := 10001, outLen := 1 }

theorem soundToggle_sound : soundToggle.Sound where
  legal := .inl rfl
  floor := by decide
  idle := by decide
  form := by decide
  bounds := by simp [soundToggle, auto, at_, rx, Endpoint.fresh, Memory.below]
  position := rfl

/-- It and the endpoint about to send CAN on one link. -/
def toggleLink (evs : List Event) : State := { soundLink evs with a := soundToggle }

theorem toggleLink_sound (evs : List Event) : (toggleLink evs).Sound :=
  { soundLink_sound evs with a := soundToggle_sound }

/-- The CAN's flip at a, the cancel's at b, the watchdog's toggle. -/
theorem witness_PhaseChangesOnlyAsTheTableSays :
    ((soundLink [.engine .a]).Sound ∧ ∃ t, step (soundLink [.engine .a]) = .next t ∧
      (t.get .a).phase ≠ ((soundLink [.engine .a]).get .a).phase) ∧
    ((soundLink [.engine .b]).Sound ∧ ∃ t, step (soundLink [.engine .b]) = .next t ∧
      (t.get .b).phase ≠ ((soundLink [.engine .b]).get .b).phase) ∧
    ((toggleLink [.engine .a]).Sound ∧ ∃ t, step (toggleLink [.engine .a]) = .next t ∧
      (t.get .a).phase ≠ ((toggleLink [.engine .a]).get .a).phase) :=
  ⟨⟨soundLink_sound _, _, rfl, by decide⟩, ⟨soundLink_sound _, _, rfl, by decide⟩,
    ⟨toggleLink_sound _, _, rfl, by decide⟩⟩

/-- The CAN at b; the ENQ that a sends in the step that begins with the watchdog's toggle. -/
theorem witness_BytesAreSentOnlyByWork :
    ((soundLink [.engine .b]).Sound ∧ ∃ t, step (soundLink [.engine .b]) = .next t ∧
      ((soundLink [.engine .b]).get .b).outq.length < (t.get .b).outq.length) ∧
    ((toggleLink [.engine .a]).Sound ∧ ∃ t, step (toggleLink [.engine .a]) = .next t ∧
      ((toggleLink [.engine .a]).get .a).outq.length < (t.get .a).outq.length) :=
  ⟨⟨soundLink_sound _, _, rfl, by decide⟩, ⟨toggleLink_sound _, _, rfl, by decide⟩⟩

/-- The step that applies a frame of one byte. -/
theorem witness_NoPartialFrameIsExposed :
    ∃ t, step (link { at_ rx .rx8 [] with len := 1 } [.engine .a]) = .next t ∧
      (t.get .a).rxLen ≠ ((link { at_ rx .rx8 [] with len := 1 } [.engine .a]).get .a).rxLen :=
  ⟨_, rfl, by decide⟩

/-- A host write while BUSY = 1, and a read, which is neither the engine's step nor a command. -/
theorem witness_HostAndEngineOwnTheirFields :
    ((∃ t, step (link soundRx [.hostWrite .a 0x004 .w4 7]) = .next t) ∧
      (∀ rest, (link soundRx [.hostWrite .a 0x004 .w4 7]).sched ≠ .reset .a :: rest) ∧
      ((link soundRx [.hostWrite .a 0x004 .w4 7]).get .a).busy = true) ∧
    ((∃ t, step (link rx [.hostRead .a 0x018 .w4]) = .next t) ∧
      (∀ rest, (link rx [.hostRead .a 0x018 .w4]).sched ≠ .reset .a :: rest) ∧
      (∀ rest, (link rx [.hostRead .a 0x018 .w4]).sched ≠ .engine .a :: rest) ∧
      (∀ v rest, (link rx [.hostRead .a 0x018 .w4]).sched ≠
        .hostWrite .a (((link rx [.hostRead .a 0x018 .w4]).get .a).hostAddr Config.offCmd) .w4 v :: rest)) :=
  ⟨⟨⟨_, rfl⟩, by simp [link], rfl⟩, ⟨⟨_, rfl⟩, by simp [link], by simp [link], by simp [link]⟩⟩

theorem witness_EndpointsShareOnlyTheLine :
    (soundLink [.engine .a]).sched = .engine .a :: [] ∧ ∃ t, step (soundLink [.engine .a]) = .next t := ⟨rfl, _, rfl⟩

theorem witness_ParametersNeverChange : ∃ t, step (soundLink [.reset .b]) = .next t := ⟨_, rfl⟩

/-! Whole exchanges: the hypotheses at the shortest and the longest frame. -/

/-- A receive attempt's start: `n`, the payload, the checksum byte, what follows it. -/
def receiving (n : Byte) (data : List Byte) (ck : Byte) (rest : List Byte) : State :=
  link { rx with inq := 0x05 :: n :: (data ++ ck :: rest) }
    ((link rx []).workEvent .a :: (List.replicate (3 * n.toNat + 11) (.engine .a) ++ []))

theorem receiving_meets (n : Byte) (data : List Byte) (ck : Byte) (rest : List Byte) :
    ((receiving n data ck rest).get .a).busy = false ∧ ((receiving n data ck rest).get .a).params.policy = .external ∧
      ((receiving n data ck rest).get .a).phase = .receive ∧
      ((receiving n data ck rest).get .a).inq = 0x05 :: n :: (data ++ ck :: rest) ∧
      (receiving n data ck rest).sched =
        (receiving n data ck rest).workEvent .a :: (List.replicate (3 * n.toNat + 11) (.engine .a) ++ []) :=
  ⟨rfl, rfl, rfl, rfl, rfl⟩

/-- RX-j, RX-m and its mismatch, RX-o: `receiving_meets` gives every other hypothesis. -/
theorem witness_ReceiveAttemptEndsAsTheChecksumSays :
    ([] : List Byte).length = (0 : Byte).toNat ∧ [(0x0A : Byte), 0x0B, 0x0C].length = (3 : Byte).toNat ∧
      (List.replicate 255 (0xFF : Byte)).length = (255 : Byte).toNat ∧
      (0x0D : Byte) = xorFold (fun k => [(0x0A : Byte), 0x0B, 0x0C].getD k 0) (3 : Byte).toNat ∧
      (0x0E : Byte) ≠ xorFold (fun k => [(0x0A : Byte), 0x0B, 0x0C].getD k 0) (3 : Byte).toNat := by
  refine ⟨rfl, rfl, List.length_replicate, ?_, ?_⟩ <;> decide

/-- A transmit attempt's start, for `OUT_LEN = n` and the FIFO an ACK and what follows it. -/
def transmitting (n : Byte) (rest : List Byte) : State :=
  link { tx with outLen := n, inq := 0x06 :: rest }
    ((link rx []).workEvent .a :: (List.replicate (n.toNat + 7) (.engine .a) ++ []))

/-- TX-e and TX-j, TX-i. -/
theorem witness_TransmitAttemptSendsTheFrame (n : Byte) (hn : n = 1 ∨ n = 255) :
    ((transmitting n [0x06]).get .a).outLen ≠ 0 ∧ ((transmitting n [0x06]).get .a).busy = false ∧
      ((transmitting n [0x06]).get .a).params.policy = .external ∧ ((transmitting n [0x06]).get .a).phase = .transmit ∧
      ((transmitting n [0x06]).get .a).inq = 0x06 :: [0x06] ∧
      (transmitting n [0x06]).sched = (transmitting n [0x06]).workEvent .a ::
        (List.replicate (((transmitting n [0x06]).get .a).outLen.toNat + 7) (.engine .a) ++ []) := by
  refine ⟨?_, rfl, rfl, rfl, rfl, rfl⟩
  rcases hn with rfl | rfl <;> decide

/-- The round trip's start. -/
def roundTrip (n : Byte) : State :=
  { State.reset with
    a := { tx with outLen := n }
    b := { rx with epoch := 1 }
    sched := (link rx []).exchange .a n.toNat ++ [] }

theorem witness_RoundTripDeliversThePayload (n : Byte) (hn : n = 1 ∨ n = 5 ∨ n = 255) :
    ((roundTrip n).get .a).outLen.toNat ≠ 0 ∧ ((roundTrip n).get .a).busy = false ∧
      ((roundTrip n).get Side.a.other).busy = false ∧ ((roundTrip n).get .a).params.policy = .external ∧
      ((roundTrip n).get Side.a.other).params.policy = .external ∧ ((roundTrip n).get .a).phase = .transmit ∧
      ((roundTrip n).get Side.a.other).phase = .receive ∧ ((roundTrip n).get .a).inq = [] ∧
      ((roundTrip n).get .a).outq = [] ∧ ((roundTrip n).get Side.a.other).inq = [] ∧
      ((roundTrip n).get Side.a.other).outq = [] ∧
      (roundTrip n).sched = (roundTrip n).exchange .a ((roundTrip n).get .a).outLen.toNat ++ [] := by
  refine ⟨?_, rfl, rfl, rfl, rfl, rfl, rfl, rfl, rfl, rfl, rfl, rfl⟩
  rcases hn with rfl | rfl | rfl <;> decide

end Sys2Proof.Tests
end

section
/-! The statements of 00_scope.md: the engine's step at a control position, and the control positions. -/

namespace Sys2Proof.Machine

/-! The state an agent of `x` acts on. -/

@[simp] theorem State.taken_turn (s : State) (x : Side) (rest : List Event) : (s.taken x rest).turn = x := rfl

@[simp] theorem State.taken_get (s : State) (x y : Side) (rest : List Event) : (s.taken x rest).get y = s.get y := by
  cases y <;> rfl

@[simp] theorem State.taken_put_cur (s : State) (x : Side) (rest : List Event) (e : Endpoint) :
    ((s.taken x rest).put x e).cur = e := by
  simp [State.cur]

/-! The engine's step by what is fetched. -/

/-- At a control position the engine's adapter call is the meaning of the instruction found there. -/
theorem stepCall_of_fetch {s : State} {item : Space × List Byte} {i : Instr} (hfetch : fetchEngine s.cur = some item)
    (hdecode : decode item.1 item.2 = .ok i) : stepCall s = exec i s := by
  simp only [stepCall, hfetch, runItem, hdecode]

/-- The engine's step at `x`: its event is taken, the computation left before is done, the adapter call follows. -/
theorem step_of_engine {s : State} {x : Side} {rest : List Event} (hsched : s.sched = .engine x :: rest) :
    step s = stepCall ((s.taken x rest).put x (s.get x).settle) := by
  have hcur : (s.taken x rest).cur = s.get x := s.taken_get x x rest
  calc step s = stepEngine (s.taken x rest) := by rw [step, hsched]; rfl
    _ = stepCall ((s.taken x rest).put x (s.get x).settle) := by rw [stepEngine, hcur]; rfl

/-- Settles O6: the engine's step is an adapter call on the settled endpoint, which fetches and runs the byte's
instruction. -/
theorem stepRunsTheWireByteDecoded : Obligations.StepRunsTheWireByteDecoded := by
  intro s x rest item i hsched hfetch hdecode
  have hcur : fetchEngine ((s.taken x rest).put x (s.get x).settle).cur = some item := by
    rw [State.taken_put_cur, hfetch]
  rw [step_of_engine hsched, stepCall_of_fetch hcur hdecode]

/-! What is fetched at each control position (30_encoding.md R100, R101, R102). -/

theorem fetchEngine_rx1 {e : Endpoint} {b : Byte} {rest : List Byte} (hseq : e.seq = .rd .rx1) (hinq : e.inq = b :: rest) :
    fetchEngine e = some (.rxFirst, [b]) := by
  simp [fetchEngine, hseq, hinq]

theorem fetchEngine_tx3 {e : Endpoint} {b : Byte} {rest : List Byte} (hseq : e.seq = .rd .tx3) (hinq : e.inq = b :: rest) :
    fetchEngine e = some (.ackWait, [b]) := by
  simp [fetchEngine, hseq, hinq]

theorem fetchEngine_tx1 {e : Endpoint} (hseq : e.seq = .tx1) : fetchEngine e = some (.emit, [Config.can]) := by
  simp only [fetchEngine, hseq]

theorem fetchEngine_tx2 {e : Endpoint} (hseq : e.seq = .tx2) : fetchEngine e = some (.emit, [Config.enq]) := by
  simp only [fetchEngine, hseq]

theorem fetchEngine_rx3 {e : Endpoint} (hseq : e.seq = .rx3) : fetchEngine e = some (.emit, [Config.ack]) := by
  simp only [fetchEngine, hseq]

/-- Settles O7, one clause per control position; `Endpoint.settle_eq_self` is the last. -/
theorem controlPositionsGiveTheirByte : Obligations.ControlPositionsGiveTheirByte := fun _ _ _ =>
  ⟨fetchEngine_rx1, fetchEngine_tx3, fetchEngine_tx1, fetchEngine_tx2, fetchEngine_rx3, Endpoint.settle_eq_self⟩

end Sys2Proof.Machine
end

section
/-! The soundness invariant of the link (10_state.md R23, R25, R43; 45_transport_adapter.md R225): it holds at reset and
every step keeps it. -/

namespace Sys2Proof.Machine

/-! The bounds of the byte arrays. -/

theorem Memory.below_nil (bound : Nat) : Memory.below [] bound := by simp [Memory.below]

theorem Memory.below_write {m : Memory} {bound j : Nat} (h : m.below bound) (hj : j < bound) (b : Byte) :
    (m.write j b).below bound := by
  intro c hc
  rcases Memory.mem_write m j b c hc with rfl | hm
  · exact hj
  · exact h c hm

theorem Memory.below_copyIn {m : Memory} {bound base : Nat} (h : m.below bound) (f : Nat → Byte) (n : Nat)
    (hn : base + n ≤ bound) : (m.copyIn base f n).below bound := by
  induction n with
  | zero => exact h
  | succ n ih => exact Memory.below_write (ih (by omega)) (by omega) _

theorem Endpoint.storeFrame_below {e : Endpoint} {bound j : Nat} (h : e.frameBuf.below bound) (hj : j < bound) (b : Byte) :
    (e.storeFrame j b).frameBuf.below bound := by
  intro c hc
  rcases e.mem_storeFrame j b c hc with rfl | hm
  · exact hj
  · exact h c hm

/-! The invariant in two parts: what the stored fields hold, and where the engine stands. -/

/-- The part of `Endpoint.Sound` that speaks of the parameters, TIMEOUT and the byte arrays alone. A conjunction, so that
it carries over as it is to every update of other fields. -/
def Endpoint.storeOk (e : Endpoint) : Prop :=
  e.params.legal ∧ e.params.timeoutMinUs ≤ e.timeout ∧
    (e.frameBuf.wf = true ∧ e.txData.wf = true ∧ e.rxData.wf = true) ∧
    (e.frameBuf.below 255 ∧ e.txData.below 256 ∧ e.rxData.below 255)

theorem Endpoint.sound_iff (e : Endpoint) :
    e.Sound ↔ e.storeOk ∧ (e.busy = false ↔ e.seq = .idle) ∧ e.positionOk :=
  ⟨fun h => ⟨⟨h.legal, h.floor, h.form, h.bounds⟩, h.idle, h.position⟩,
    fun ⟨⟨hlegal, hfloor, hform, hbounds⟩, hidle, hpos⟩ => ⟨hlegal, hfloor, hidle, hform, hbounds, hpos⟩⟩

theorem Endpoint.Sound.storeOk {e : Endpoint} (h : e.Sound) : e.storeOk := (e.sound_iff.1 h).1

theorem Endpoint.Sound.busyAt {e : Endpoint} {pos : Seq} (h : e.Sound) (hseq : e.seq = pos) (hpos : pos ≠ .idle) :
    e.busy = true := by
  simpa using mt h.idle.1 (hseq ▸ hpos)

/-- The facts of the position `pos`, where the engine stands there. -/
theorem Endpoint.Sound.positionAt {e : Endpoint} {pos : Seq} (h : e.Sound) (hseq : e.seq = pos) :
    ({ e with seq := pos } : Endpoint).positionOk := by
  subst hseq
  exact h.position

/-- A running command is sound where its position's facts hold. -/
theorem Endpoint.sound_running {e : Endpoint} (h : e.storeOk) (hbusy : e.busy = true) (hseq : e.seq ≠ .idle)
    (hpos : e.positionOk) : e.Sound :=
  e.sound_iff.2 ⟨h, by simp [hbusy, hseq], hpos⟩

/-- An idle endpoint has no position to speak of. -/
theorem Endpoint.sound_idle {e : Endpoint} (h : e.storeOk) (hbusy : e.busy = false) (hseq : e.seq = .idle) : e.Sound :=
  e.sound_iff.2 ⟨h, by simp [hbusy, hseq], by simp [Endpoint.positionOk, hseq]⟩

theorem Endpoint.storeOk_storeFrame {e : Endpoint} (h : e.storeOk) {j : Nat} (hj : j < 255) (b : Byte) :
    (e.storeFrame j b).storeOk := by
  obtain ⟨hlegal, hfloor, ⟨hframe, htx, hrx⟩, ⟨hframe', htx', hrx'⟩⟩ := h
  refine ⟨?_, ?_, ⟨e.storeFrame_wf j b hframe, ?_, ?_⟩, ⟨Endpoint.storeFrame_below hframe' hj b, ?_, ?_⟩⟩ <;> simpa

/-! The engine's local computation. -/

/-- W2 leads to a position of the path of the phase held, with `OUT_LEN` as that position asks. -/
theorem Endpoint.dispatch_sound {e : Endpoint} (h : e.storeOk) (hbusy : e.busy = true) : e.dispatch.Sound := by
  unfold Endpoint.dispatch
  split
  · next hphase => exact Endpoint.sound_running h hbusy nofun hphase
  · next hphase =>
    split
    · next hlen => exact Endpoint.sound_running h hbusy nofun ⟨hphase, hlen⟩
    · next hlen => exact Endpoint.sound_running h hbusy nofun ⟨hphase, hlen⟩

theorem Endpoint.watchdog_sound {e : Endpoint} (h : e.storeOk) (hbusy : e.busy = true) : e.watchdog.Sound := by
  unfold Endpoint.watchdog
  split
  · exact Endpoint.dispatch_sound h hbusy
  · exact Endpoint.dispatch_sound h hbusy

theorem Endpoint.latchLength_sound {e : Endpoint} (h : e.storeOk) (hbusy : e.busy = true) (hphase : e.phase = .receive) :
    e.latchLength.Sound := by
  by_cases hr : e.r = 0
  · rw [e.latchLength_zero hr]
    exact Endpoint.sound_running h hbusy nofun ⟨hphase, rfl, rfl⟩
  · rw [e.latchLength_eq hr]
    refine Endpoint.sound_running h hbusy nofun ⟨hphase, ?_, rfl⟩
    exact Nat.pos_of_ne_zero fun hzero => hr (BitVec.eq_of_toNat_eq hzero)

/-- `COUNT <- i + 1` does not wrap: `i` has 9 bits and COUNT 16. -/
theorem count_toNat (i : BitVec 9) : (i.setWidth 16 + 1 : BitVec 16).toNat = i.toNat + 1 := by
  have := i.isLt
  simp [BitVec.toNat_add]
  omega

theorem Endpoint.storePayload_sound {e : Endpoint} (h : e.storeOk) (hbusy : e.busy = true)
    (hpos : e.phase = .receive ∧ e.i.toNat < e.len.toNat ∧ e.count.toNat = e.i.toNat) : e.storePayload.Sound := by
  obtain ⟨hphase, hi, -⟩ := hpos
  have hlen := e.len.isLt
  have hstore : (e.storeFrame e.i.toNat e.r).storeOk := Endpoint.storeOk_storeFrame h (by omega) _
  have hbusy' : (e.storeFrame e.i.toNat e.r).busy = true := by simpa
  have hphase' : (e.storeFrame e.i.toNat e.r).phase = .receive := by simpa
  have hnext := Endpoint.nextIndex_toNat hi
  rcases Nat.lt_or_eq_of_le (Nat.succ_le_of_lt hi) with hmore | hlast
  · rw [Endpoint.storePayload_more hmore]
    refine Endpoint.sound_running hstore hbusy' nofun ⟨hphase', ?_, ?_⟩
    · simp only [hnext, Endpoint.storeFrame_len]; exact hmore
    · simp only [count_toNat, hnext]
  · rw [Endpoint.storePayload_last hlast]
    refine Endpoint.sound_running hstore hbusy' nofun ⟨hphase', ?_, ?_⟩
    · simp only [count_toNat, Endpoint.storeFrame_len]; exact hlast
    · simp only [Endpoint.storeFrame_len]; rfl

theorem Endpoint.Sound.settle {e : Endpoint} (h : e.Sound) : e.settle.Sound := by
  have hs := h.storeOk
  unfold Endpoint.settle
  cases hseq : e.seq with
  | toggle => exact Endpoint.watchdog_sound hs (h.busyAt hseq nofun)
  | latch => exact Endpoint.latchLength_sound hs (h.busyAt hseq nofun) (h.positionAt hseq)
  | store => exact Endpoint.storePayload_sound hs (h.busyAt hseq nofun) (h.positionAt hseq)
  | _ => exact h

/-! The engine's adapter call. -/

/-- What holds during a wait does not speak of the wait's own fields. -/
theorem Endpoint.waitOk_moveTo {e : Endpoint} {call : Wait} (h : e.waitOk call) (start : Word) (pos : Seq) :
    ({ e with wstart := start, seq := pos } : Endpoint).waitOk call := by
  cases call <;> exact h

/-- A data byte read: at RX4, RX5 and RX7 the call takes the oldest byte of the FIFO (41_receive.md R145, R146, R148). -/
theorem Endpoint.callTurn_data {e : Endpoint} {call : Wait} {b : Byte} {rest : List Byte} (hseq : e.seq = .rd call)
    (hinq : e.inq = b :: rest) (hrx1 : call ≠ .rx1) (htx3 : call ≠ .tx3) :
    e.callTurn = { e with inq := rest }.takeData call b := by
  cases call with
  | rx1 => contradiction
  | tx3 => contradiction
  | _ => simp only [Endpoint.callTurn, Endpoint.engineStep, hseq, Endpoint.readData, Endpoint.tryReadByte, hinq]

/-- The read that ends a wait, of a control or a data byte. -/
theorem Endpoint.callTurn_read_sound {e : Endpoint} {call : Wait} (h : e.Sound) (hseq : e.seq = .rd call) :
    e.callTurn.Sound := by
  have hs := h.storeOk
  have hbusy := h.busyAt hseq nofun
  obtain ⟨hwait, hbyte⟩ : e.waitOk call ∧ e.inq ≠ [] := by simpa only [Endpoint.positionOk, hseq] using h.position
  obtain ⟨b, rest, hinq⟩ := List.exists_cons_of_ne_nil hbyte
  cases call with
  | rx1 =>
    simp only [Endpoint.callTurn, hseq, hinq]
    split
    · exact Endpoint.sound_running hs hbusy nofun hwait
    · split
      · exact Endpoint.sound_idle hs rfl rfl
      · exact Endpoint.sound_idle hs rfl rfl
  | tx3 =>
    simp only [Endpoint.callTurn, hseq, hinq]
    split
    · exact Endpoint.sound_running hs hbusy nofun hwait
    · exact Endpoint.sound_idle hs rfl rfl
  | rx4 =>
    rw [Endpoint.callTurn_data hseq hinq nofun nofun]
    exact Endpoint.sound_running hs hbusy nofun hwait
  | rx5 =>
    rw [Endpoint.callTurn_data hseq hinq nofun nofun]
    exact Endpoint.sound_running hs hbusy nofun hwait
  | rx7 =>
    rw [Endpoint.callTurn_data hseq hinq nofun nofun]
    simp only [Endpoint.takeData, Endpoint.checkFrame]
    split
    · exact Endpoint.sound_running hs hbusy nofun hwait
    · exact Endpoint.sound_idle hs rfl rfl

theorem Endpoint.waitPoll_sound {e : Endpoint} {call : Wait} (h : e.storeOk) (hbusy : e.busy = true)
    (hwait : e.waitOk call) : (e.waitPoll call).Sound := by
  rw [Endpoint.waitPoll_eq]
  by_cases hinq : e.inq = []
  · rw [if_pos hinq]
    exact Endpoint.sound_running h hbusy nofun (Endpoint.waitOk_moveTo hwait _ _)
  · rw [if_neg hinq]
    exact Endpoint.sound_running h hbusy nofun ⟨Endpoint.waitOk_moveTo hwait _ _, hinq⟩

theorem Endpoint.waitClock_sound {e : Endpoint} {call : Wait} (h : e.storeOk) (hbusy : e.busy = true)
    (hwait : e.waitOk call) : (e.waitClock call).Sound := by
  rw [Endpoint.waitClock_eq]
  split
  · exact Endpoint.sound_idle h rfl rfl
  · exact Endpoint.sound_running h hbusy nofun (Endpoint.waitOk_moveTo hwait _ _)

/-- TX4 of a frame that is not empty (42_transmit.md R174). -/
theorem Endpoint.sendLength_eq {e : Endpoint} (hlen : e.outLen ≠ 0) :
    e.sendLength = { e.writeByte e.outLen with i := 0, seq := .tx5 } := if_neg hlen

theorem Endpoint.sendLength_sound {e : Endpoint} (h : e.storeOk) (hbusy : e.busy = true)
    (hpos : e.phase = .transmit ∧ e.outLen ≠ 0) : e.sendLength.Sound := by
  obtain ⟨hphase, hlen⟩ := hpos
  rw [Endpoint.sendLength_eq hlen]
  refine Endpoint.sound_running h hbusy nofun ⟨hphase, ?_⟩
  exact Nat.pos_of_ne_zero fun hzero => hlen (BitVec.eq_of_toNat_eq hzero)

theorem Endpoint.applyFrame_sound {e : Endpoint} (h : e.storeOk) : e.applyFrame.Sound := by
  obtain ⟨hlegal, hfloor, ⟨hframe, htx, hrx⟩, ⟨hframe', htx', hrx'⟩⟩ := h
  have hlen := e.len.isLt
  exact Endpoint.sound_idle ⟨hlegal, hfloor, ⟨hframe, htx, Memory.copyIn_wf _ _ _ _ hrx⟩,
    ⟨hframe', htx', Memory.below_copyIn hrx' _ _ (by omega)⟩⟩ rfl rfl

theorem Endpoint.sendPayload_sound {e : Endpoint} (h : e.storeOk) (hbusy : e.busy = true)
    (hpos : e.phase = .transmit ∧ e.i.toNat < e.outLength) : e.sendPayload.Sound := by
  obtain ⟨hphase, hi⟩ := hpos
  simp only [Endpoint.sendPayload]
  split
  · next hmore => exact Endpoint.sound_running h hbusy nofun ⟨hphase, hmore⟩
  · refine Endpoint.sound_running h hbusy nofun ⟨hphase, fun hzero => ?_⟩
    have hzero' : e.outLen = 0 := hzero
    simp [Endpoint.outLength, hzero'] at hi

theorem Endpoint.Sound.callTurn {e : Endpoint} (h : e.Sound) : e.callTurn.Sound := by
  have hs := h.storeOk
  simp only [Endpoint.callTurn, Endpoint.engineStep]
  cases hseq : e.seq with
  | rd call => simpa only [Endpoint.callTurn, Endpoint.engineStep, hseq] using Endpoint.callTurn_read_sound h hseq
  | idle => exact h
  | toggle => exact h
  | latch => exact h
  | store => exact h
  | w1 => exact Endpoint.sound_running hs (h.busyAt hseq nofun) nofun (h.positionAt hseq)
  | wb0 call =>
    exact Endpoint.sound_running hs (h.busyAt hseq nofun) nofun (Endpoint.waitOk_moveTo (h.positionAt hseq) _ _)
  | wb1 call => exact Endpoint.waitPoll_sound hs (h.busyAt hseq nofun) (h.positionAt hseq)
  | wb2 call => exact Endpoint.waitClock_sound hs (h.busyAt hseq nofun) (h.positionAt hseq)
  | rx3 => exact Endpoint.sound_running hs (h.busyAt hseq nofun) nofun (h.positionAt hseq)
  | rx8 => exact Endpoint.applyFrame_sound hs
  | tx1 => exact Endpoint.sound_idle hs rfl rfl
  | tx2 => exact Endpoint.sound_running hs (h.busyAt hseq nofun) nofun (h.positionAt hseq)
  | tx4 => exact Endpoint.sendLength_sound hs (h.busyAt hseq nofun) (h.positionAt hseq)
  | tx5 => exact Endpoint.sendPayload_sound hs (h.busyAt hseq nofun) (h.positionAt hseq)
  | tx6 =>
    obtain ⟨hphase, hlen⟩ := h.positionAt hseq
    exact Endpoint.sound_running hs (h.busyAt hseq nofun) nofun ⟨hphase, hlen, rfl⟩
  | tx7 => exact Endpoint.sound_idle hs rfl rfl

theorem Endpoint.Sound.engineTurn {e : Endpoint} (h : e.Sound) : e.engineTurn.Sound := h.settle.callTurn

/-! The host's write. -/

/-- SET_TIMEOUT keeps the floor (44_timeout.md R205, 00_scope.md R16). -/
theorem le_maxWord_right (a b : Word) : b ≤ maxWord a b := by
  unfold maxWord
  split
  · exact BitVec.le_refl b
  · next h => exact BitVec.not_lt.1 h

theorem Endpoint.Sound.commandTurn {e : Endpoint} (h : e.Sound) (hidle : e.busy = false) (i : Instr) :
    (e.commandTurn i).Sound := by
  have hs := h.storeOk
  have hseq := h.idle.1 hidle
  unfold Endpoint.commandTurn
  split
  · unfold Endpoint.startWork
    split
    · next hpolicy => exact Endpoint.sound_running hs rfl nofun hpolicy
    · exact Endpoint.dispatch_sound (e := { e with busy := true }) hs rfl
  · obtain ⟨hlegal, -, hrest⟩ := hs
    exact Endpoint.sound_idle ⟨hlegal, le_maxWord_right _ _, hrest⟩ hidle hseq
  · exact Endpoint.sound_idle hs hidle hseq
  · exact Endpoint.sound_idle hs hidle hseq

/-- A naturally aligned access that starts in the TX_DATA window ends in it. -/
theorem window_access_le {o : Nat} {n : Width} (hlt : o < 0x200) (haligned : o % n.bytes = 0) : o + n.bytes ≤ 0x200 := by
  cases n <;> simp only [Width.bytes] at * <;> omega

theorem Endpoint.Sound.memWrite {e : Endpoint} (h : e.Sound) (hidle : e.busy = false) (addr : BitVec 10) (n : Width)
    (v : Word) : (e.memWrite addr n v).Sound := by
  have hs := h.storeOk
  have hseq := h.idle.1 hidle
  unfold Endpoint.memWrite
  split
  · exact h
  · split
    · exact Endpoint.sound_idle hs hidle hseq
    · split
      · exact Endpoint.sound_idle hs hidle hseq
      · split
        · next hwin =>
          obtain ⟨hge, hlt, haligned⟩ := hwin
          have hge' : 0x100 ≤ addr.toNat := hge
          have hend := window_access_le (n := n) hlt (by simpa [aligned] using haligned)
          obtain ⟨hlegal, hfloor, ⟨hframe, htx, hrx⟩, ⟨hframe', htx', hrx'⟩⟩ := hs
          refine Endpoint.sound_idle ⟨hlegal, hfloor, ⟨hframe, Memory.copyIn_wf _ _ _ _ htx, hrx⟩,
            ⟨hframe', Memory.below_copyIn htx' _ _ ?_, hrx'⟩⟩ hidle hseq
          show addr.toNat - 0x100 + n.bytes ≤ 256
          omega
        · exact h

theorem Endpoint.Sound.writeTurn {e : Endpoint} (h : e.Sound) (addr : BitVec 10) (n : Width) (v : Word) :
    (e.writeTurn addr n v).Sound := by
  unfold Endpoint.writeTurn
  split
  · exact h
  · next hbusy =>
    split
    · exact h.commandTurn (by simpa using hbusy) _
    · exact h.memWrite (by simpa using hbusy) _ _ _

theorem Endpoint.Sound.hostTurn {e : Endpoint} (h : e.Sound) (addr : Nat) (n : Width) (v : Word) :
    (e.hostTurn addr n v).Sound := by
  rcases e.hostTurn_cases addr n v with ⟨off, -, heq⟩ | heq
  · rw [heq]; exact h.writeTurn off n v
  · rw [heq]; exact h

/-! The reset, the line, the clock and the reading host. -/

theorem Endpoint.resetTo_sound {e : Endpoint} (h : e.params.legal) (epoch : Nat) : (e.resetTo epoch).Sound :=
  Endpoint.sound_idle ⟨h, BitVec.le_refl _, ⟨rfl, rfl, rfl⟩,
    ⟨Memory.below_nil _, Memory.below_nil _, Memory.below_nil _⟩⟩ rfl rfl

/-- The streams, the clock and the host's latest value may move under a running command, if a byte in the FIFO stays. -/
theorem Endpoint.positionOk_environment {e : Endpoint} (h : e.positionOk) {inq : List Byte} (outq : List Byte) (time : Nat)
    (rdata : Word) (hinq : e.inq ≠ [] → inq ≠ []) :
    ({ e with inq := inq, outq := outq, time := time, rdata := rdata } : Endpoint).positionOk := by
  unfold Endpoint.positionOk at h ⊢
  cases hseq : e.seq with
  | rd call =>
    rw [hseq] at h
    obtain ⟨hwait, hbyte⟩ := h
    exact ⟨hwait, hinq hbyte⟩
  | _ => rw [hseq] at h; exact h

theorem Endpoint.Sound.arrive {e : Endpoint} (h : e.Sound) (b : Byte) : (e.arrive b).Sound :=
  (e.arrive b).sound_iff.2
    ⟨h.storeOk, h.idle, Endpoint.positionOk_environment h.position _ _ _ fun _ => by simp⟩

theorem Endpoint.Sound.moved {e e' : Endpoint} (h : e.Sound) (hmoved : e.moved e') : e'.Sound := by
  rw [hmoved.1]
  exact (Endpoint.sound_iff _).2 ⟨h.storeOk, h.idle, Endpoint.positionOk_environment h.position _ _ _ id⟩

/-! The link. -/

/-- Every step keeps each endpoint sound, whatever the other one holds. -/
theorem Endpoint.Sound.of_step {s t : State} {x : Side} (h : (s.get x).Sound) (hstep : step s = .next t) :
    (t.get x).Sound := by
  rcases step_get hstep x with
    ⟨_, -, heq⟩ | ⟨addr, n, v, _, -, heq⟩ | ⟨_, -, heq⟩ | ⟨b, _, heq, -⟩ | ⟨hmoved, -, -⟩
  · rw [heq]; exact h.engineTurn
  · rw [heq]; exact h.hostTurn addr n v
  · rw [heq]; exact Endpoint.resetTo_sound h.legal _
  · rw [heq]; exact h.arrive b
  · exact h.moved hmoved

/-- The draw an endpoint's buffers go by changes at its reset alone, which takes the next number (10_state.md R46). -/
theorem step_epoch {s t : State} (hstep : step s = .next t) (x : Side) :
    (t.get x).epoch = (s.get x).epoch ∨ (∃ rest, s.sched = .reset x :: rest) ∧ (t.get x).epoch = s.draws := by
  rcases step_get hstep x with
    ⟨_, -, heq⟩ | ⟨addr, n, v, _, -, heq⟩ | ⟨rest, hsched, heq⟩ | ⟨b, _, heq, -⟩ | ⟨⟨heq, -⟩, -, -⟩
  · obtain ⟨-, -, -, -, -, -, hepoch, -⟩ := (s.get x).engineTurn_static
    exact .inl (by rw [heq, hepoch])
  · rcases (s.get x).hostTurn_cases addr n v with ⟨off, -, hturn⟩ | hturn
    · obtain ⟨-, -, -, -, -, -, -, -, hepoch⟩ := (s.get x).writeTurn_static off n v
      exact .inl (by rw [heq, hturn, hepoch])
    · exact .inl (by rw [heq, hturn])
  · exact .inr ⟨⟨rest, hsched⟩, by rw [heq, Endpoint.resetTo_epoch]⟩
  · exact .inl (by rw [heq, Endpoint.arrive_epoch])
  · exact .inl (by rw [heq])

/-! What the line takes leaves the link's own fields. -/

@[simp] theorem State.takeOut_draws (s : State) (x : Side) (f : Byte → Endpoint → Endpoint) :
    (s.takeOut x f).draws = s.draws := by
  rcases s.takeOut_cases x f with ⟨-, heq⟩ | ⟨b, rest, -, heq⟩ <;> simp [heq]

@[simp] theorem State.takeOut_linkModel (s : State) (x : Side) (f : Byte → Endpoint → Endpoint) :
    (s.takeOut x f).linkModel = s.linkModel := by
  rcases s.takeOut_cases x f with ⟨-, heq⟩ | ⟨b, rest, -, heq⟩ <;> simp [heq]

@[simp] theorem State.lineLose_link (s : State) (x : Side) :
    (s.lineLose x).linkModel = s.linkModel ∧ (s.lineLose x).draws = s.draws := by
  unfold State.lineLose; split <;> simp

@[simp] theorem State.lineCorrupt_link (s : State) (x : Side) (b : Byte) :
    (s.lineCorrupt x b).linkModel = s.linkModel ∧ (s.lineCorrupt x b).draws = s.draws := by
  unfold State.lineCorrupt; split <;> simp

@[simp] theorem State.lineNoise_link (s : State) (x : Side) (b : Byte) :
    (s.lineNoise x b).linkModel = s.linkModel ∧ (s.lineNoise x b).draws = s.draws := by
  unfold State.lineNoise; split <;> simp

/-- A read takes one number of the free values' counter or, outside the block, none; the line's model stays. -/
theorem State.readTurn_link (s : State) (addr : Nat) (n : Width) :
    (s.readTurn addr n).linkModel = s.linkModel ∧ s.draws ≤ (s.readTurn addr n).draws := by
  unfold State.readTurn
  split
  · simp [State.hostRead]
  · exact ⟨rfl, le_rfl⟩

/-- No step writes the line's model; the counter of draws never falls, and a reset takes its number from it. -/
theorem step_link {s t : State} (hstep : step s = .next t) :
    t.linkModel = s.linkModel ∧ s.draws ≤ t.draws ∧ ∀ x rest, s.sched = .reset x :: rest → s.draws < t.draws := by
  rw [step_eq] at hstep
  obtain rfl := Host.Outcome.next.inj hstep
  clear hstep
  cases hsched : s.sched with
  | nil => simp
  | cons ev rest =>
    cases ev with
    | hostRead x addr n => simpa using State.readTurn_link (({ s with sched := rest } : State).atSide x) addr n
    | hostWrite x addr n v => simp
    | engine x => simp
    | clock x d => simp [State.tick]
    | deliver x => simp [State.lineDeliver]
    | lose x => simp
    | corrupt x b => simp
    | noise x b => simp
    | reset x => simp [State.resetCur]

/-- Two resets never share their draws: every step keeps the two endpoints' numbers distinct and counted. -/
theorem State.Sound.step_draws {s t : State} (h : s.Sound) (hstep : step s = .next t) :
    t.a.epoch ≠ t.b.epoch ∧ t.a.epoch < t.draws ∧ t.b.epoch < t.draws := by
  obtain ⟨hne, ha, hb⟩ := h.draws
  obtain ⟨-, hle, hreset⟩ := step_link hstep
  have hepochA := step_epoch hstep .a
  have hepochB := step_epoch hstep .b
  simp only [State.get_a, State.get_b] at hepochA hepochB
  rcases hepochA with hepochA | ⟨⟨rest, hsched⟩, hepochA⟩
  · rcases hepochB with hepochB | ⟨⟨rest, hsched⟩, hepochB⟩
    · omega
    · have := hreset _ _ hsched
      omega
  · have := hreset _ _ hsched
    rcases hepochB with hepochB | ⟨⟨_, hsched'⟩, -⟩
    · omega
    · simp [hsched] at hsched'

/-- Settles O50: each endpoint stays sound in every case of `step_get`, and the reset draws stay distinct. -/
theorem everyStepKeepsTheLinkSound : Obligations.EveryStepKeepsTheLinkSound := fun _ _ h hstep =>
  { a := Endpoint.Sound.of_step (x := .a) h.a hstep
    b := Endpoint.Sound.of_step (x := .b) h.b hstep
    draws := h.step_draws hstep }

theorem Endpoint.fresh_sound {p : Params} (h : p.legal) (epoch : Nat) : (Endpoint.fresh p epoch).Sound :=
  Endpoint.resetTo_sound (e := Endpoint.fresh p epoch) h epoch

/-- Settles O51: a fresh endpoint is one that its reset leaves. -/
theorem resetIsSound : Obligations.ResetIsSound :=
  { a := Endpoint.fresh_sound (.inl rfl) 0
    b := Endpoint.fresh_sound (.inl rfl) 1
    draws := by decide }

end Sys2Proof.Machine
end

section
/-! The statements of 10_state.md on what writes which field: the frame of every instruction, the owners of the fields
(R44), the parameters (R21), and the host's accesses to the registers (R32 to R41). -/

namespace Sys2Proof.Machine

/-! The frame of an instruction. -/

/-- Every other field than PHASE, TIMEOUT, SEQ, STATUS and the streams is one that no instruction writes. -/
theorem Endpoint.sameRest_of_written (e : Endpoint) (phase : Phase) (timeout : Word) (seq : Seq) (code : Status)
    (busy : Bool) (inq outq : List Byte) :
    e.sameRest { e with
      phase := phase, timeout := timeout, seq := seq, code := code, busy := busy, inq := inq, outq := outq } :=
  { params := rfl, wd := rfl, count := rfl, len := rfl, cksum := rfl, wstart := rfl, i := rfl, t := rfl, r := rfl
    arg := rfl, outLen := rfl, rxLen := rfl, bytes := fun _ => ⟨rfl, rfl, rfl⟩, time := rfl, epoch := rfl
    rdata := rfl }

theorem Endpoint.startWork_sameRest (e : Endpoint) : e.sameRest e.startWork := by
  unfold Endpoint.startWork
  split
  · exact Endpoint.sameRest_of_written ..
  · rw [Endpoint.dispatch_eq]
    exact Endpoint.sameRest_of_written ..

theorem State.sameOutside_refl (s : State) : s.sameOutside s := ⟨rfl, rfl, rfl, rfl, rfl⟩

theorem State.sameOutside_setCur (s : State) (e : Endpoint) : s.sameOutside (s.setCur e) := by
  simp [State.sameOutside]

/-- An instruction's frame: outside the acting endpoint nothing changes, and there only what an instruction may write. -/
def State.frame (s t : State) : Prop := s.sameOutside t ∧ s.cur.sameRest t.cur

theorem State.frame_setCur {s : State} {e : Endpoint} (h : s.cur.sameRest e) : s.frame (s.setCur e) :=
  ⟨s.sameOutside_setCur e, by rwa [State.setCur_cur]⟩

theorem accept_frame {k : Endpoint → Endpoint} {s t : State} (h : accept k s = .next t)
    (hk : s.cur.sameRest (k s.cur)) : s.frame t := by
  rcases accept_cases k s with ⟨-, heq⟩ | ⟨-, heq⟩
  · obtain rfl := Host.Outcome.next.inj (heq.symm.trans h)
    exact ⟨s.sameOutside_refl, Endpoint.sameRest_of_written ..⟩
  · obtain rfl := Host.Outcome.next.inj (heq.symm.trans h)
    exact State.frame_setCur hk

theorem atControl_frame {call : Wait} {k : Endpoint → Endpoint} {s t : State}
    (h : atControl call k s = .next t) (hk : ∀ rest, s.cur.sameRest (k { s.cur with inq := rest })) : s.frame t := by
  obtain ⟨-, _, rest, -, rfl⟩ := atControl_next h
  exact State.frame_setCur (hk rest)

theorem atEmit_frame {pos : Seq} {b : Byte} {k : Endpoint → Endpoint} {s t : State}
    (h : atEmit pos b k s = .next t) (hk : s.cur.sameRest (k (s.cur.writeByte b))) : s.frame t := by
  obtain ⟨-, rfl⟩ := atEmit_next h
  exact State.frame_setCur hk

/-- Settles O19: each instruction is one of the three guarded operations, and its effect writes none of the rest. -/
theorem instructionsLeaveTheRestUnchanged : Obligations.InstructionsLeaveTheRestUnchanged := by
  intro i s t h
  show s.frame t
  cases i with
  | work => exact accept_frame ((exec_work s).symm.trans h) s.cur.startWork_sameRest
  | setTimeout => exact accept_frame ((exec_setTimeout s).symm.trans h) (Endpoint.sameRest_of_written ..)
  | setPhase => exact accept_frame ((exec_setPhase s).symm.trans h) (Endpoint.sameRest_of_written ..)
  | reserved00 => exact accept_frame ((exec_reserved00 s).symm.trans h) (Endpoint.sameRest_of_written ..)
  | reserved04 | reserved08 | reserved10 | reserved20 | reserved40 | reserved80 =>
    exact accept_frame h (Endpoint.sameRest_of_written ..)
  | enq => exact atControl_frame ((exec_enq s).symm.trans h) (fun _ => Endpoint.sameRest_of_written ..)
  | can => exact atControl_frame ((exec_can s).symm.trans h) (fun _ => Endpoint.sameRest_of_written ..)
  | rxOther => exact atControl_frame ((exec_rxOther _ s).symm.trans h) (fun _ => Endpoint.sameRest_of_written ..)
  | ack => exact atControl_frame ((exec_ack s).symm.trans h) (fun _ => Endpoint.sameRest_of_written ..)
  | txOther => exact atControl_frame ((exec_txOther _ s).symm.trans h) (fun _ => Endpoint.sameRest_of_written ..)
  | sendCan => exact atEmit_frame ((exec_sendCan s).symm.trans h) (Endpoint.sameRest_of_written ..)
  | sendEnq => exact atEmit_frame ((exec_sendEnq s).symm.trans h) (Endpoint.sameRest_of_written ..)
  | sendAck => exact atEmit_frame ((exec_sendAck s).symm.trans h) (Endpoint.sameRest_of_written ..)

/-! The owners of the fields. -/

/-- A write at any place but CMD stores ARG, OUT_LEN or TX_DATA and nothing else (10_state.md R44). -/
theorem Endpoint.memWrite_eq (e : Endpoint) (addr : BitVec 10) (n : Width) (v : Word) :
    ∃ arg outLen txData, e.memWrite addr n v = { e with arg := arg, outLen := outLen, txData := txData } := by
  unfold Endpoint.memWrite
  (repeat' split) <;> exact ⟨_, _, _, rfl⟩

theorem Endpoint.writeTurn_busy {e : Endpoint} (h : e.busy = true) (addr : BitVec 10) (n : Width) (v : Word) :
    e.writeTurn addr n v = e := if_pos h

theorem Endpoint.writeTurn_not_cmd {e : Endpoint} {addr : BitVec 10} {n : Width} (h : ¬ (addr = Config.offCmd ∧ n = .w4))
    (v : Word) : ∃ arg outLen txData, e.writeTurn addr n v = { e with arg := arg, outLen := outLen, txData := txData } := by
  simp only [Endpoint.writeTurn, if_neg h]
  split
  · exact ⟨_, _, _, rfl⟩
  · exact e.memWrite_eq addr n v

/-- A step that is neither the endpoint's reset, nor its engine's, nor a command to it, writes only what the host owns, the
streams, the clock and the host's latest value. -/
theorem step_get_of_no_command {s t : State} {x : Side} (hstep : step s = .next t)
    (hreset : ∀ rest, s.sched ≠ .reset x :: rest) (hengine : ∀ rest, s.sched ≠ .engine x :: rest)
    (hcmd : ∀ v rest, s.sched ≠ .hostWrite x ((s.get x).hostAddr Config.offCmd) .w4 v :: rest) :
    ∃ arg outLen txData inq outq time rdata, t.get x = { s.get x with
      arg := arg, outLen := outLen, txData := txData, inq := inq, outq := outq, time := time, rdata := rdata } := by
  rcases step_get hstep x with
    ⟨rest, hsched, -⟩ | ⟨addr, n, v, rest, hsched, heq⟩ | ⟨rest, hsched, -⟩ | ⟨b, _, heq, -⟩ | ⟨⟨heq, -⟩, -, -⟩
  · exact absurd hsched (hengine rest)
  · rcases (s.get x).hostTurn_cases addr n v with ⟨off, rfl, hturn⟩ | hturn
    · have hoff : ¬ (off = Config.offCmd ∧ n = .w4) := by
        rintro ⟨rfl, rfl⟩
        exact hcmd v rest hsched
      obtain ⟨arg, outLen, txData, hwrite⟩ := Endpoint.writeTurn_not_cmd hoff v
      exact ⟨arg, outLen, txData, _, _, _, _, by rw [heq, hturn, hwrite]⟩
    · exact ⟨_, _, _, _, _, _, _, by rw [heq, hturn]⟩
  · exact absurd hsched (hreset rest)
  · exact ⟨_, _, _, _, _, _, _, by rw [heq]; rfl⟩
  · exact ⟨_, _, _, _, _, _, _, heq⟩

/-- A step that is neither the endpoint's reset nor a write of its host while BUSY = 0 leaves what the host owns. -/
theorem step_keeps_hostFields {s t : State} {x : Side} (hstep : step s = .next t)
    (hreset : ∀ rest, s.sched ≠ .reset x :: rest)
    (hhost : (s.get x).busy = true ∨ ∀ addr n v rest, s.sched ≠ .hostWrite x addr n v :: rest) :
    (t.get x).arg = (s.get x).arg ∧ (t.get x).outLen = (s.get x).outLen ∧ (t.get x).txData = (s.get x).txData := by
  rcases step_get hstep x with
    ⟨rest, -, heq⟩ | ⟨addr, n, v, rest, hsched, heq⟩ | ⟨rest, hsched, -⟩ | ⟨b, _, heq, -⟩ | ⟨⟨heq, -⟩, -, -⟩
  · obtain ⟨-, -, harg, houtLen, htxData, -, -, -⟩ := (s.get x).engineTurn_static
    rw [heq]
    exact ⟨harg, houtLen, htxData⟩
  · rcases hhost with hbusy | hno
    · have hturn : (s.get x).hostTurn addr n v = s.get x := by
        rcases (s.get x).hostTurn_cases addr n v with ⟨off, -, h⟩ | h
        · rw [h, Endpoint.writeTurn_busy hbusy]
        · exact h
      rw [heq, hturn]
      exact ⟨rfl, rfl, rfl⟩
    · exact absurd hsched (hno addr n v rest)
  · exact absurd hsched (hreset rest)
  · rw [heq]
    exact ⟨rfl, rfl, rfl⟩
  · rw [heq]
    exact ⟨rfl, rfl, rfl⟩

/-- Settles O55: the host's half is `step_keeps_hostFields`, the engine's half `step_get_of_no_command`. -/
theorem hostAndEngineOwnTheirFields : Obligations.HostAndEngineOwnTheirFields := by
  intro s t x hstep hreset
  refine ⟨step_keeps_hostFields hstep hreset, fun hengine hcmd => ?_⟩
  obtain ⟨arg, outLen, txData, inq, outq, time, rdata, heq⟩ := step_get_of_no_command hstep hreset hengine hcmd
  rw [heq]
  exact ⟨rfl, rfl, rfl, rfl, rfl, rfl, rfl, rfl, rfl, rfl, rfl, rfl⟩

/-! The parameters. -/

theorem step_params {s t : State} (hstep : step s = .next t) (x : Side) : (t.get x).params = (s.get x).params := by
  rcases step_get hstep x with
    ⟨_, -, heq⟩ | ⟨addr, n, v, _, -, heq⟩ | ⟨_, -, heq⟩ | ⟨b, _, heq, -⟩ | ⟨⟨heq, -⟩, -, -⟩
  · rw [heq, (s.get x).engineTurn_static.1]
  · rcases (s.get x).hostTurn_cases addr n v with ⟨off, -, hturn⟩ | hturn
    · rw [heq, hturn, ((s.get x).writeTurn_static off n v).1]
    · rw [heq, hturn]
  · rw [heq, Endpoint.resetTo_params]
  · rw [heq, Endpoint.arrive_params]
  · rw [heq]

/-- Settles O57: the endpoints' parameters by `step_params`, the line's model by `step_link`. -/
theorem parametersNeverChange : Obligations.ParametersNeverChange := fun _ _ hstep =>
  ⟨step_params hstep .a, step_params hstep .b, (step_link hstep).1⟩

/-! The host's write to CMD. -/

/-- A 4-byte write to offset 0x000 is the command its word decodes to (20_memory.md R63(a)). -/
theorem stepWrite_cmd (s : State) (v : Word) : stepWrite s Config.offCmd .w4 v = exec (decodeCmd v) s := by
  simp only [stepWrite, fetchWrite, and_self, if_true, runItem, wordBytes, decode, leWord_wordBytes]

/-- Settles O5: the address is the block's offset 0x000, and a write there is `stepWrite_cmd`. -/
theorem stepRunsTheCommandWritten : Obligations.StepRunsTheCommandWritten := by
  intro s x v rest hsched
  have hcur : (s.taken x rest).cur = s.get x := s.taken_get x x rest
  calc step s
      = stepHost (s.taken x rest) ((s.get x).hostAddr Config.offCmd)
          (fun off => stepWrite (s.taken x rest) off .w4 v) := by
        rw [step, hsched]; rfl
    _ = stepWrite (s.taken x rest) Config.offCmd .w4 v := by
        rw [stepHost, hcur, Endpoint.offset?_hostAddr]
    _ = exec (decodeCmd v) (s.taken x rest) := stepWrite_cmd _ v

/-! The host's reads. -/

/-- A naturally aligned access lies within one word of the block, and so within the reserved offsets it starts in. -/
theorem aligned_access_word {o k : Nat} {n : Width} (haligned : o % n.bytes = 0) (hk : k < n.bytes) :
    (o + k) / 4 = o / 4 ∧ (o + k) % 4 = o % 4 + k := by
  cases n <;> simp only [Width.bytes] at haligned hk <;> omega

/-- Settles O36: a misaligned read gives 0, and an aligned one reads reserved bytes only, all of them 0. -/
theorem misalignedAndReservedReadsReturnZero : Obligations.MisalignedAndReservedReadsReturnZero := by
  intro e draw addr n
  refine ⟨e.memRead_misaligned draw addr n, fun hreserved => ?_⟩
  by_cases haligned : addr.toNat % n.bytes = 0
  · refine word_ext fun k _ => ?_
    rw [e.byteOf_memRead draw addr n k haligned, byteOf_zero]
    split
    · next hk =>
      obtain ⟨hword, -⟩ := aligned_access_word haligned hk
      exact e.hostByte_reserved draw _ (by omega)
    · rfl
  · exact e.memRead_misaligned draw addr n haligned

/-- The seven registers of the map in the order of their words (20_memory.md R61). -/
def Endpoint.registers (e : Endpoint) : List Word :=
  [0, e.arg, e.statusWord, e.phaseWord, e.timeout, e.outLen.setWidth 32, e.rxLen.setWidth 32]

theorem Endpoint.regWord_eq_registers (e : Endpoint) {k : Nat} (hk : k < 7) : e.regWord k = e.registers.getD k 0 := by
  interval_cases k <;> rfl

/-- A register's byte reads as it stands, RX_LEN's while BUSY = 0. -/
theorem Endpoint.hostByte_visible_register (e : Endpoint) (draw : Nat) {o : Nat} (ho : o < 0x01C)
    (hvisible : o < 0x018 ∨ e.busy = false) : e.hostByte draw o = byteOf (e.registers.getD (o / 4) 0) (o % 4) := by
  rw [← e.regWord_eq_registers (show o / 4 < 7 by omega)]
  by_cases hlow : o < 0x018
  · exact e.hostByte_register draw o hlow
  · have hidle : e.busy = false := hvisible.resolve_left hlow
    rw [e.hostByte_rxLen draw o (by omega) ho, e.resultByte_idle draw o _ hidle]

/-- Byte `k` of an aligned read of the registers, of any width. -/
theorem Endpoint.byteOf_memRead_register (e : Endpoint) (draw : Nat) {addr : BitVec 10} {n : Width} (k : Nat)
    (haligned : addr.toNat % n.bytes = 0) (haddr : addr.toNat < 0x01C) (hvisible : addr.toNat < 0x018 ∨ e.busy = false) :
    byteOf (e.memRead draw addr n) k =
      if k < n.bytes then byteOf (e.registers.getD (addr.toNat / 4) 0) (addr.toNat % 4 + k) else 0 := by
  rw [e.byteOf_memRead draw addr n k haligned]
  by_cases hk : k < n.bytes
  · obtain ⟨hword, hbyte⟩ := aligned_access_word haligned hk
    rw [if_pos hk, if_pos hk, e.hostByte_visible_register draw (by omega) (hvisible.imp_left (by omega)), hword, hbyte]
  · rw [if_neg hk, if_neg hk]

/-- A 4-byte read of a register. -/
theorem Endpoint.memRead_register (e : Endpoint) (draw : Nat) {addr : BitVec 10} {k : Nat} (haddr : addr.toNat = 4 * k)
    (hk : k < 7) (hvisible : k < 6 ∨ e.busy = false) : e.memRead draw addr .w4 = e.registers.getD k 0 := by
  refine word_ext fun j hj => ?_
  rw [e.byteOf_memRead_register draw j (by simp [Width.bytes, haddr]) (by omega) (hvisible.imp_left (by omega))]
  rw [if_pos (show j < Width.w4.bytes from hj), haddr, Nat.mul_div_cancel_left k (by decide), Nat.mul_mod_right,
    Nat.zero_add]

theorem Endpoint.statusWord_eq (e : Endpoint) :
    e.statusWord = (Status.value e.code).setWidth 32 + (if e.busy then 0x100 else 0) := by
  unfold Endpoint.statusWord
  cases e.busy <;> cases e.code <;> rfl

theorem Endpoint.phaseWord_eq (e : Endpoint) :
    e.phaseWord = (if e.phase = .transmit then 1 else 0) + (if e.params.policy = .autoToggle then 2 else 0) := by
  unfold Endpoint.phaseWord
  cases e.phase <;> cases e.params.policy <;> rfl

/-- Settles O35: the words of STATUS and PHASE are those of R32 and R35, and every aligned read is of `registers`. -/
theorem hostReadsTheRegisters : Obligations.HostReadsTheRegisters := by
  intro e draw code status phase regs
  have hstatus : status = e.statusWord := e.statusWord_eq.symm
  have hphase : phase = e.phaseWord := e.phaseWord_eq.symm
  have hregs : regs = e.registers := by
    simp only [regs, Endpoint.registers, hstatus, hphase]
  rw [hstatus, hphase, hregs]
  exact ⟨e.memRead_register draw (k := 0) rfl (by decide) (.inl (by decide)),
    e.memRead_register draw (k := 1) rfl (by decide) (.inl (by decide)),
    e.memRead_register draw (k := 2) rfl (by decide) (.inl (by decide)),
    e.memRead_register draw (k := 3) rfl (by decide) (.inl (by decide)),
    e.memRead_register draw (k := 4) rfl (by decide) (.inl (by decide)),
    e.memRead_register draw (k := 5) rfl (by decide) (.inl (by decide)),
    fun hidle => e.memRead_register draw (k := 6) rfl (by decide) (.inr hidle),
    fun addr n k haligned haddr _ hvisible => e.byteOf_memRead_register draw k haligned haddr hvisible⟩

end Sys2Proof.Machine
end

section
/-! The statements of 20_memory.md: the host's reads of the windows and of the results while BUSY = 1, and the host's
writes of the registers and of TX_DATA. -/

namespace Sys2Proof.Machine

/-! The reads of the windows. -/

/-- An aligned read stays within one word of the block, so what the bytes of that word are is what it returns. -/
theorem Endpoint.byteOf_memRead_of_word {e : Endpoint} {draw : Nat} {addr : BitVec 10} {n : Width} {f : Nat → Byte}
    (haligned : addr.toNat % n.bytes = 0)
    (hword : ∀ j, (addr.toNat + j) / 4 = addr.toNat / 4 → e.hostByte draw (addr.toNat + j) = f j) (k : Nat) :
    byteOf (e.memRead draw addr n) k = if k < n.bytes then f k else 0 := by
  rw [e.byteOf_memRead draw addr n k haligned]
  by_cases hk : k < n.bytes
  · rw [if_pos hk, if_pos hk, hword k (aligned_access_word haligned hk).1]
  · rw [if_neg hk, if_neg hk]

/-- Settles O37: the word an aligned read of a window stays in lies in the window. -/
theorem windowReadsAreLittleEndian : Obligations.WindowReadsAreLittleEndian := by
  intro e draw addr n k haligned _
  constructor
  · intro hge hlt
    refine Endpoint.byteOf_memRead_of_word (f := fun j => e.txByte (addr.toNat - 0x100 + j)) haligned
      (fun j hj => ?_) k
    rw [e.hostByte_txData draw _ (by omega) (by omega), Nat.sub_add_comm hge]
  · intro hge hlt hidle
    refine Endpoint.byteOf_memRead_of_word (f := fun j => e.rxByte (addr.toNat - 0x200 + j)) haligned
      (fun j hj => ?_) k
    rw [e.hostByte_rxData draw _ (by omega) (by omega), e.resultByte_idle draw _ _ hidle, Nat.sub_add_comm hge]

/-- While BUSY = 1 every byte of RX_DATA and RX_LEN reads as a draw (20_memory.md R68; log 7). -/
theorem Endpoint.hostByte_busy_result {e : Endpoint} (hbusy : e.busy = true) (draw : Nat) {o : Nat}
    (ho : 0x200 ≤ o ∧ o < 0x300 ∨ 0x018 ≤ o ∧ o < 0x01C) : e.hostByte draw o = Config.busyByte draw o := by
  rcases ho with ⟨hge, hlt⟩ | ⟨hge, hlt⟩
  · rw [e.hostByte_rxData draw o hge hlt, e.resultByte_busy draw o _ hbusy]
  · rw [e.hostByte_rxLen draw o hge hlt, e.resultByte_busy draw o _ hbusy]

/-- Settles O38: the word an aligned read stays in lies in RX_DATA, or is RX_LEN. -/
theorem busyResultReadsAreDraws : Obligations.BusyResultReadsAreDraws := by
  intro e draw addr n k hbusy haligned _ hplace
  exact Endpoint.byteOf_memRead_of_word (f := fun j => Config.busyByte draw (addr.toNat + j)) haligned
    (fun j hj => Endpoint.hostByte_busy_result hbusy draw (by omega)) k

/-! The step of a host access. -/

theorem step_of_hostRead {s : State} {x : Side} {addr : Nat} {n : Width} {rest : List Event}
    (hsched : s.sched = .hostRead x addr n :: rest) : step s = .next ((s.taken x rest).readTurn addr n) := by
  rw [step_eq, hsched]
  rfl

theorem step_of_hostWrite {s : State} {x : Side} {addr : Nat} {n : Width} {v : Word} {rest : List Event}
    (hsched : s.sched = .hostWrite x addr n v :: rest) :
    step s = .next ((s.taken x rest).put x ((s.get x).hostTurn addr n v)) := by
  rw [step_eq, hsched]
  rfl

/-- A host's write that leaves its endpoint as it is changes nothing. -/
theorem step_of_hostWrite_ignored {s : State} {x : Side} {addr : Nat} {n : Width} {v : Word} {rest : List Event}
    (hsched : s.sched = .hostWrite x addr n v :: rest) (hsame : (s.get x).hostTurn addr n v = s.get x) :
    step s = .next (s.taken x rest) := by
  rw [step_of_hostWrite hsched, hsame, ← s.taken_get x x rest, State.put_get]

/-- Settles O39: a read at one of the block's offsets is the host port's read there. -/
theorem hostReadChangesNothing : Obligations.HostReadChangesNothing := by
  intro s x addr n rest hsched
  have hcur : (s.taken x rest).cur = s.get x := s.taken_get x x rest
  rw [step_of_hostRead hsched, State.readTurn, hcur, Endpoint.offset?_hostAddr]
  simp only [State.hostRead, hcur]
  rfl

/-! The writes at the places of the map, CMD aside (20_memory.md R63). -/

theorem aligned_iff {addr : BitVec 10} {n : Width} : aligned addr n = true ↔ addr.toNat % n.bytes = 0 := beq_iff_eq

/-- A write at any place but CMD is the host port's, whatever BUSY is. -/
theorem Endpoint.writeTurn_eq_memWrite (e : Endpoint) {addr : BitVec 10} {n : Width}
    (hcmd : ¬ (addr = Config.offCmd ∧ n = .w4)) (v : Word) : e.writeTurn addr n v = e.memWrite addr n v := by
  unfold Endpoint.writeTurn
  rw [if_neg hcmd]
  split
  · next hbusy => exact (if_pos hbusy).symm
  · rfl

theorem Endpoint.writeTurn_arg {e : Endpoint} (hidle : e.busy = false) (v : Word) :
    e.writeTurn 0x004 .w4 v = { e with arg := v } := by
  rw [e.writeTurn_eq_memWrite (by decide), Endpoint.memWrite, if_neg (by simp [hidle]), if_pos (by decide)]

theorem Endpoint.writeTurn_outLen {e : Endpoint} (hidle : e.busy = false) (v : Word) :
    e.writeTurn 0x014 .w4 v = { e with outLen := byteOf v 0 } := by
  rw [e.writeTurn_eq_memWrite (by decide), Endpoint.memWrite, if_neg (by simp [hidle]), if_neg (by decide),
    if_pos (by decide)]

/-- No register lies in the TX_DATA window. -/
theorem window_ne_register {addr reg : BitVec 10} {n : Width} (hge : 0x100 ≤ addr.toNat) (hreg : reg.toNat < 0x100) :
    ¬ (addr = reg ∧ n = .w4) := by
  rintro ⟨rfl, -⟩
  omega

theorem Endpoint.writeTurn_txData {e : Endpoint} (hidle : e.busy = false) {addr : BitVec 10} {n : Width}
    (hge : 0x100 ≤ addr.toNat) (hlt : addr.toNat < 0x200) (haligned : addr.toNat % n.bytes = 0) (v : Word) :
    e.writeTurn addr n v = { e with txData := e.txData.copyIn (addr.toNat - 0x100) (byteOf v) n.bytes } := by
  rw [e.writeTurn_eq_memWrite (window_ne_register hge (by decide)), Endpoint.memWrite, if_neg (by simp [hidle]),
    if_neg (window_ne_register hge (by decide)), if_neg (window_ne_register hge (by decide)),
    if_pos ⟨hge, hlt, aligned_iff.2 haligned⟩]
  rfl

/-- A write that is neither a 4-byte one of CMD, ARG or OUT_LEN nor an aligned one of TX_DATA is ignored. -/
theorem Endpoint.writeTurn_ignored (e : Endpoint) {addr : BitVec 10} {n : Width}
    (hregister : ¬ (n = .w4 ∧ (addr = 0x000 ∨ addr = 0x004 ∨ addr = 0x014)))
    (hwindow : ¬ (0x100 ≤ addr.toNat ∧ addr.toNat < 0x200 ∧ addr.toNat % n.bytes = 0)) (v : Word) :
    e.writeTurn addr n v = e := by
  rw [e.writeTurn_eq_memWrite fun ⟨hcmd, hn⟩ => hregister ⟨hn, .inl hcmd⟩, Endpoint.memWrite]
  split
  · rfl
  · rw [if_neg fun ⟨harg, hn⟩ => hregister ⟨hn, .inr (.inl harg)⟩,
      if_neg fun ⟨hout, hn⟩ => hregister ⟨hn, .inr (.inr hout)⟩,
      if_neg fun ⟨hge, hlt, haligned⟩ => hwindow ⟨hge, hlt, aligned_iff.1 haligned⟩]

/-- Settles O40: `Endpoint.writeTurn_arg` and `Endpoint.writeTurn_outLen`. -/
theorem registerWritesStore : Obligations.RegisterWritesStore := by
  intro s x v rest hidle
  constructor
  · intro hsched
    rw [step_of_hostWrite hsched, Endpoint.hostTurn_hostAddr, Endpoint.writeTurn_arg hidle]
  · intro hsched
    have hlow : byteOf v 0 = v.setWidth 8 := (BitVec.setWidth_eq_extractLsb' (by decide)).symm
    rw [step_of_hostWrite hsched, Endpoint.hostTurn_hostAddr, Endpoint.writeTurn_outLen hidle, hlow]

/-- Settles O42: the bytes stored are `Endpoint.writeTurn_txData`'s copy, which ends within the window. -/
theorem txWindowWriteStoresItsBytes : Obligations.TxWindowWriteStoresItsBytes := by
  intro s x addr n v rest hsched hidle hge hlt haligned
  have hend : addr.toNat - 0x100 + n.bytes ≤ Buf.txData.size := by
    have := window_access_le hlt haligned
    show addr.toNat - 0x100 + n.bytes ≤ 256
    omega
  refine ⟨(s.get x).txData.copyIn (addr.toNat - 0x100) (byteOf v) n.bytes, ?_, fun k => ?_⟩
  · rw [step_of_hostWrite hsched, Endpoint.hostTurn_hostAddr, Endpoint.writeTurn_txData hidle hge hlt haligned]
  · exact (s.get x).bufByte_copyIn .txData _ _ _ _ k hend

/-! Accesses outside the block (20_memory.md R61; log 20). -/

theorem Endpoint.offset?_outside {e : Endpoint} {addr : Nat}
    (h : addr < e.params.hostBase ∨ e.params.hostBase + 1024 ≤ addr) : e.offset? addr = none :=
  if_neg fun ⟨hge, hlt⟩ => by
    have : addr < e.params.hostBase + 1024 := hlt
    omega

/-- Settles O41: the writes that no place of the map takes, then the accesses outside the block. -/
theorem otherWritesAreIgnored : Obligations.OtherWritesAreIgnored := by
  constructor
  · intro s x addr n v rest hsched hplace
    have hregister : ¬ (n = .w4 ∧ (addr = 0x000 ∨ addr = 0x004 ∨ addr = 0x014)) := by
      rintro ⟨rfl, rfl | rfl | rfl⟩ <;> simp [Width.bytes] at hplace
    have hwindow : ¬ (0x100 ≤ addr.toNat ∧ addr.toNat < 0x200 ∧ addr.toNat % n.bytes = 0) := by omega
    apply step_of_hostWrite_ignored hsched
    rw [Endpoint.hostTurn_hostAddr, Endpoint.writeTurn_ignored _ hregister hwindow]
  · intro s x addr n v rest houtside hsched
    have hoffset := Endpoint.offset?_outside houtside
    rcases hsched with hsched | hsched
    · apply step_of_hostWrite_ignored hsched
      rw [Endpoint.hostTurn, hoffset]
    · have hcur : (s.taken x rest).cur = s.get x := s.taken_get x x rest
      rw [step_of_hostRead hsched, State.readTurn, hcur, hoffset]

end Sys2Proof.Machine
end

section
/-! The statements of 30_encoding.md: the decoder and the encoder agree, a command word is told by its low byte, a wire
byte by its position, and the bytes the engine sends. -/

namespace Sys2Proof.Machine

/-! A reserved row of the command codes: the code `2^k + low` with the `k` bits `low` open (R92). -/

theorem rowCode_toNat {k : Nat} {base : Byte} (hbase : base.toNat = 2 ^ k) (hk : k < 8) (low : BitVec k) :
    (base ||| low.setWidth 8).toNat = 2 ^ k + low.toNat := by
  have hlow : low.toNat % 2 ^ 8 = low.toNat :=
    Nat.mod_eq_of_lt (low.isLt.trans (Nat.pow_lt_pow_right (by decide) hk))
  have hor := Nat.two_pow_add_eq_or_of_lt low.isLt 1
  rw [Nat.mul_one] at hor
  rw [BitVec.toNat_or, BitVec.toNat_setWidth, hbase, hlow, hor]

/-- The bits above the open ones tell the row. -/
theorem extractLsb'_eq_one_iff (c : Byte) {k n : Nat} (hn : k + n = 8) (hk : k < 8) :
    c.extractLsb' k n = 1 ↔ c.toNat / 2 ^ k = 1 := by
  have hone : 1 % 2 ^ n = 1 := Nat.mod_eq_of_lt (Nat.one_lt_two_pow (by omega))
  have hlt : c.toNat / 2 ^ k < 2 ^ n := by
    rw [Nat.div_lt_iff_lt_mul (Nat.two_pow_pos k), ← Nat.pow_add, Nat.add_comm, hn]
    exact c.isLt
  rw [← BitVec.toNat_inj, BitVec.extractLsb'_toNat, Nat.shiftRight_eq_div_pow, Nat.mod_eq_of_lt hlt,
    show (1 : BitVec n).toNat = 1 % 2 ^ n from BitVec.toNat_ofNat 1 n, hone]

/-- A code of the row is its base with its low bits. -/
theorem rowCode_setWidth {k : Nat} {base c : Byte} (hbase : base.toNat = 2 ^ k) (hk : k < 8)
    (hrow : c.toNat / 2 ^ k = 1) : base ||| (c.setWidth k).setWidth 8 = c := by
  apply BitVec.eq_of_toNat_eq
  rw [rowCode_toNat hbase hk, BitVec.toNat_setWidth]
  have hdiv := Nat.div_add_mod c.toNat (2 ^ k)
  rwa [hrow, Nat.mul_one] at hdiv

theorem rowCode_div {k : Nat} {base : Byte} (hbase : base.toNat = 2 ^ k) (hk : k < 8) (low : BitVec k) :
    (base ||| low.setWidth 8).toNat / 2 ^ k = 1 := by
  rw [rowCode_toNat hbase hk, Nat.add_div_left _ (Nat.two_pow_pos k), Nat.div_eq_of_lt low.isLt]

theorem setWidth_rowCode {k : Nat} {base : Byte} (hbase : base.toNat = 2 ^ k) (hk : k < 8) (low : BitVec k) :
    (base ||| low.setWidth 8).setWidth k = low := by
  apply BitVec.eq_of_toNat_eq
  rw [BitVec.toNat_setWidth, rowCode_toNat hbase hk, Nat.add_mod_left, Nat.mod_eq_of_lt low.isLt]

/-! The decoder of command words by the number of the code. -/

/-- Each test of the decoder as a fact about the code's number. -/
theorem decodeCmd_eq (w : Word) :
    decodeCmd w =
      if (byteOf w 0).toNat = 0 then .reserved00
      else if (byteOf w 0).toNat = 1 then .work
      else if (byteOf w 0).toNat = 2 then .setTimeout
      else if (byteOf w 0).toNat = 3 then .setPhase
      else if (byteOf w 0).toNat / 2 ^ 2 = 1 then .reserved04 ((byteOf w 0).setWidth 2)
      else if (byteOf w 0).toNat / 2 ^ 3 = 1 then .reserved08 ((byteOf w 0).setWidth 3)
      else if (byteOf w 0).toNat / 2 ^ 4 = 1 then .reserved10 ((byteOf w 0).setWidth 4)
      else if (byteOf w 0).toNat / 2 ^ 5 = 1 then .reserved20 ((byteOf w 0).setWidth 5)
      else if (byteOf w 0).toNat / 2 ^ 6 = 1 then .reserved40 ((byteOf w 0).setWidth 6)
      else .reserved80 ((byteOf w 0).setWidth 7) := by
  have hcode0 : byteOf w 0 = 0x00 ↔ (byteOf w 0).toNat = 0 := BitVec.toNat_inj.symm
  have hcode1 : byteOf w 0 = 0x01 ↔ (byteOf w 0).toNat = 1 := BitVec.toNat_inj.symm
  have hcode2 : byteOf w 0 = 0x02 ↔ (byteOf w 0).toNat = 2 := BitVec.toNat_inj.symm
  have hcode3 : byteOf w 0 = 0x03 ↔ (byteOf w 0).toNat = 3 := BitVec.toNat_inj.symm
  simp only [decodeCmd, hcode0, hcode1, hcode2, hcode3,
    extractLsb'_eq_one_iff _ (show 2 + 6 = 8 from rfl) (by decide),
    extractLsb'_eq_one_iff _ (show 3 + 5 = 8 from rfl) (by decide),
    extractLsb'_eq_one_iff _ (show 4 + 4 = 8 from rfl) (by decide),
    extractLsb'_eq_one_iff _ (show 5 + 3 = 8 from rfl) (by decide),
    extractLsb'_eq_one_iff _ (show 6 + 2 = 8 from rfl) (by decide)]

theorem decodeCmd_reserved04 {w : Word} (h : (byteOf w 0).toNat / 2 ^ 2 = 1) :
    decodeCmd w = .reserved04 ((byteOf w 0).setWidth 2) := by
  simp (disch := omega) only [decodeCmd_eq, if_pos, if_neg]

theorem decodeCmd_reserved08 {w : Word} (h : (byteOf w 0).toNat / 2 ^ 3 = 1) :
    decodeCmd w = .reserved08 ((byteOf w 0).setWidth 3) := by
  simp (disch := omega) only [decodeCmd_eq, if_pos, if_neg]

theorem decodeCmd_reserved10 {w : Word} (h : (byteOf w 0).toNat / 2 ^ 4 = 1) :
    decodeCmd w = .reserved10 ((byteOf w 0).setWidth 4) := by
  simp (disch := omega) only [decodeCmd_eq, if_pos, if_neg]

theorem decodeCmd_reserved20 {w : Word} (h : (byteOf w 0).toNat / 2 ^ 5 = 1) :
    decodeCmd w = .reserved20 ((byteOf w 0).setWidth 5) := by
  simp (disch := omega) only [decodeCmd_eq, if_pos, if_neg]

theorem decodeCmd_reserved40 {w : Word} (h : (byteOf w 0).toNat / 2 ^ 6 = 1) :
    decodeCmd w = .reserved40 ((byteOf w 0).setWidth 6) := by
  simp (disch := omega) only [decodeCmd_eq, if_pos, if_neg]

theorem decodeCmd_reserved80 {w : Word} (h : (byteOf w 0).toNat / 2 ^ 7 = 1) :
    decodeCmd w = .reserved80 ((byteOf w 0).setWidth 7) := by
  simp (disch := omega) only [decodeCmd_eq, if_neg]

/-! Decoding the bytes of a command word. -/

theorem byteOf_code (c : Byte) : byteOf (c.setWidth 32) 0 = c := by
  ext i hi
  simp [byteOf, hi, show i < 32 by omega]

/-- A command word is told by its low byte (R90). -/
theorem decodeCmd_congr {w v : Word} (h : byteOf w 0 = byteOf v 0) : decodeCmd w = decodeCmd v := by
  simp only [decodeCmd, h]

theorem decode_wordBytes (w : Word) : decode .cmd (wordBytes w) = .ok (decodeCmd w) := by
  simp only [wordBytes, decode, leWord_wordBytes]

/-- Whatever stands in the ignored bytes, the first byte is the code. -/
theorem decode_cmd (b0 b1 b2 b3 : Byte) : decode .cmd [b0, b1, b2, b3] = .ok (decodeCmd (b0.setWidth 32)) := by
  refine congrArg Except.ok (decodeCmd_congr ?_)
  rw [byteOf_leWord _ _ _ le_rfl, byteOf_code]
  rfl

/-- The codes of one reserved row decode to the row's instruction with the low bits as operand. -/
theorem decode_row {k : Nat} {row : BitVec k → Instr} {base : Byte}
    (hrow : ∀ {w : Word}, (byteOf w 0).toNat / 2 ^ k = 1 → decodeCmd w = row ((byteOf w 0).setWidth k))
    (hbase : base.toNat = 2 ^ k) (hk : k < 8) (low : BitVec k) :
    decode .cmd (cmdBytes (base ||| low.setWidth 8)) = .ok (row low) := by
  rw [cmdBytes, decode_cmd, hrow (by rw [byteOf_code]; exact rowCode_div hbase hk low), byteOf_code,
    setWidth_rowCode hbase hk]

/-! Decoding a wire byte at the positions that read one (R100, R101). -/

theorem decode_rxFirst_iff {b : Byte} {i : Instr} : decode .rxFirst [b] = .ok i ↔ decodeRxFirst b = i :=
  ⟨Except.ok.inj, congrArg Except.ok⟩

theorem decode_ackWait_iff {b : Byte} {i : Instr} : decode .ackWait [b] = .ok i ↔ decodeAckWait b = i :=
  ⟨Except.ok.inj, congrArg Except.ok⟩

theorem decodeRxFirst_other {b : Byte} (henq : b ≠ Config.enq) (hcan : b ≠ Config.can) : decodeRxFirst b = .rxOther b := by
  rw [decodeRxFirst, if_neg henq, if_neg hcan]

theorem decodeAckWait_other {b : Byte} (hack : b ≠ Config.ack) : decodeAckWait b = .txOther b := if_neg hack

/-- Settles O1: a named code or control byte decodes by evaluation, a reserved row by `decode_row`, and "any other" byte is
none of those its space names. -/
theorem decodeEncodeRoundTrip : Obligations.DecodeEncodeRoundTrip := by
  intro i hwf
  cases i with
  | work | setTimeout | setPhase | reserved00 => exact decode_cmd ..
  | reserved04 low => exact decode_row decodeCmd_reserved04 rfl (by decide) low
  | reserved08 low => exact decode_row decodeCmd_reserved08 rfl (by decide) low
  | reserved10 low => exact decode_row decodeCmd_reserved10 rfl (by decide) low
  | reserved20 low => exact decode_row decodeCmd_reserved20 rfl (by decide) low
  | reserved40 low => exact decode_row decodeCmd_reserved40 rfl (by decide) low
  | reserved80 low => exact decode_row decodeCmd_reserved80 rfl (by decide) low
  | enq | can | ack | sendCan | sendEnq | sendAck => rfl
  | rxOther b =>
    obtain ⟨henq, hcan⟩ : b ≠ Config.enq ∧ b ≠ Config.can := by simpa [Instr.wellFormed] using hwf
    exact decode_rxFirst_iff.2 (decodeRxFirst_other henq hcan)
  | txOther b =>
    have hack : b ≠ Config.ack := by simpa [Instr.wellFormed] using hwf
    exact decode_ackWait_iff.2 (decodeAckWait_other hack)

/-- No bit of the code is lost (R92). -/
theorem encode_decodeCmd (w : Word) : encode (decodeCmd w) = (.cmd, cmdBytes (byteOf w 0)) := by
  rw [decodeCmd_eq]
  have hcode {c : Byte} (h : c = byteOf w 0) : (Space.cmd, cmdBytes c) = (Space.cmd, cmdBytes (byteOf w 0)) := by rw [h]
  split
  · next h => exact hcode (BitVec.eq_of_toNat_eq h.symm)
  split
  · next h => exact hcode (BitVec.eq_of_toNat_eq h.symm)
  split
  · next h => exact hcode (BitVec.eq_of_toNat_eq h.symm)
  split
  · next h => exact hcode (BitVec.eq_of_toNat_eq h.symm)
  split
  · next h => exact hcode (rowCode_setWidth (k := 2) rfl (by decide) h)
  split
  · next h => exact hcode (rowCode_setWidth (k := 3) rfl (by decide) h)
  split
  · next h => exact hcode (rowCode_setWidth (k := 4) rfl (by decide) h)
  split
  · next h => exact hcode (rowCode_setWidth (k := 5) rfl (by decide) h)
  split
  · next h => exact hcode (rowCode_setWidth (k := 6) rfl (by decide) h)
  · have hlt := (byteOf w 0).isLt
    exact hcode (rowCode_setWidth (k := 7) rfl (by decide) (by omega))

/-- A command's code is the low byte of exactly the words that decode to it. -/
theorem decodeCmd_eq_iff (w : Word) {i : Instr} {c : Byte} (hwf : i.wellFormed = true)
    (hcode : encode i = (.cmd, cmdBytes c)) : decodeCmd w = i ↔ byteOf w 0 = c := by
  constructor
  · intro h
    have hbytes : cmdBytes (byteOf w 0) = cmdBytes c := by
      rw [← h, encode_decodeCmd] at hcode
      exact congrArg Prod.snd hcode
    exact (List.cons.inj hbytes).1
  · rintro rfl
    have h := decodeEncodeRoundTrip i hwf
    rw [hcode, cmdBytes, decode_cmd, decodeCmd_congr (byteOf_code _)] at h
    exact Except.ok.inj h

/-- Every command but the three named ones has the meaning of a reserved code (40_phase_control.md R125). -/
theorem exec_eq_badCommand {i : Instr} (hcmd : (encode i).1 = .cmd) (hwork : i ≠ .work) (htimeout : i ≠ .setTimeout)
    (hphase : i ≠ .setPhase) (s : State) : exec i s = accept badCommand s := by
  cases i with
  | work | setTimeout | setPhase => contradiction
  | reserved00 | reserved04 | reserved08 | reserved10 | reserved20 | reserved40 | reserved80 => rfl
  | enq | can | rxOther | ack | txOther | sendCan | sendEnq | sendAck => cases hcmd

/-- Settles O2: the encoding of the decoded word is its low byte, and so tells which command it is. -/
theorem commandWordIsToldByItsLowByte : Obligations.CommandWordIsToldByItsLowByte := by
  intro w
  have hwork := decodeCmd_eq_iff w (i := .work) rfl rfl
  have htimeout := decodeCmd_eq_iff w (i := .setTimeout) rfl rfl
  have hphase := decodeCmd_eq_iff w (i := .setPhase) rfl rfl
  exact ⟨decode_wordBytes w, decodeCmd_congr (byteOf_code _).symm, encode_decodeCmd w, hwork, htimeout, hphase,
    fun h1 h2 h3 s => exec_eq_badCommand (congrArg Prod.fst (encode_decodeCmd w)) (mt hwork.1 h1) (mt htimeout.1 h2)
      (mt hphase.1 h3) s⟩

theorem decodeRxFirst_eq_enq_iff (b : Byte) : decodeRxFirst b = .enq ↔ b = Config.enq := by
  unfold decodeRxFirst
  split
  · simpa
  · split <;> simpa

theorem decodeRxFirst_eq_can_iff (b : Byte) : decodeRxFirst b = .can ↔ b = Config.can := by
  unfold decodeRxFirst
  split
  · next h => simp [h, Config.enq, Config.can]
  · split <;> simpa

theorem decodeAckWait_eq_ack_iff (b : Byte) : decodeAckWait b = .ack ↔ b = Config.ack := by
  unfold decodeAckWait
  split <;> simpa

/-- Settles O3: what each of the two reading positions makes of the byte. -/
theorem wireByteMeaningDependsOnPosition : Obligations.WireByteMeaningDependsOnPosition := fun b =>
  ⟨decode_rxFirst_iff.trans (decodeRxFirst_eq_enq_iff b), decode_rxFirst_iff.trans (decodeRxFirst_eq_can_iff b),
    fun henq hcan => decode_rxFirst_iff.2 (decodeRxFirst_other henq hcan),
    decode_ackWait_iff.trans (decodeAckWait_eq_ack_iff b),
    fun hack => decode_ackWait_iff.2 (decodeAckWait_other hack)⟩

/-- Settles O4: seven of the words are encodings, and SET_PHASE's has a bit set that is ignored. -/
theorem specWordsDecode : Obligations.SpecWordsDecode :=
  ⟨decodeEncodeRoundTrip .work rfl, decode_cmd .., decodeEncodeRoundTrip (.reserved04 3) rfl,
    decodeEncodeRoundTrip (.reserved80 0x7F) rfl, decodeEncodeRoundTrip .enq rfl,
    decodeEncodeRoundTrip (.rxOther 0x02) rfl, decodeEncodeRoundTrip .ack rfl, decodeEncodeRoundTrip .sendCan rfl⟩

/-! The control bytes sent (R102). -/

/-- Settles O22: each of the three is `atEmit` with its own byte, whose `WriteByte` appends it. -/
theorem wireEmitsAppendOneByte : Obligations.WireEmitsAppendOneByte := by
  intro i s t hi h
  simp only [List.mem_cons, List.not_mem_nil, or_false] at hi
  rcases hi with rfl | rfl | rfl
  · obtain ⟨-, rfl⟩ := atEmit_next ((exec_sendCan s).symm.trans h)
    simp [encode, Config.can]
  · obtain ⟨-, rfl⟩ := atEmit_next ((exec_sendEnq s).symm.trans h)
    simp [encode, Config.enq]
  · obtain ⟨-, rfl⟩ := atEmit_next ((exec_sendAck s).symm.trans h)
    simp [encode, Config.ack]

/-- The byte the adapter call at a settled position passes to `WriteByte`, if the position has one (R96, R102). -/
def Endpoint.sentByte? (e : Endpoint) : Option Byte :=
  match e.seq with
  | .rx3 => some Config.ack
  | .tx1 => some Config.can
  | .tx2 => some Config.enq
  | .tx4 => some e.outLen
  | .tx5 => some (e.txByte e.i.toNat)
  | .tx6 => some (xorFold e.txByte e.outLen.toNat)
  | _ => none

/-- An adapter call adds exactly its position's byte to the outbound stream. -/
theorem Endpoint.callTurn_outq (e : Endpoint) : e.callTurn.outq = e.outq ++ e.sentByte?.toList := by
  cases hseq : e.seq with
  | rd call =>
    cases call <;> cases hinq : e.inq <;>
      simp only [callTurn, sentByte?, hseq, hinq, engineStep, readData, tryReadByte, takeData, checkFrame] <;>
      (repeat' split) <;> simp
  | wb1 call => simp [callTurn, sentByte?, hseq, engineStep, waitPoll_eq]
  | wb2 call =>
    simp only [callTurn, sentByte?, hseq, engineStep, waitClock_eq]
    split <;> simp
  | tx4 =>
    simp only [callTurn, sentByte?, hseq, engineStep, sendLength]
    split <;> simp
  | tx5 =>
    simp only [callTurn, sentByte?, hseq, engineStep, sendPayload]
    split <;> simp
  | _ => simp [callTurn, sentByte?, hseq, engineStep, readWatch, applyFrame, sendChecksum, finishTransmit]

/-- No local computation is left at any other position than `toggle`, `latch` and `store`. -/
theorem Endpoint.settle_at {e : Endpoint} {pos : Seq} (hseq : e.seq = pos)
    (hpos : pos ∉ [Seq.toggle, Seq.latch, Seq.store]) : e.settle = e := by
  simp only [List.mem_cons, List.not_mem_nil, or_false, not_or] at hpos
  obtain ⟨htoggle, hlatch, hstore⟩ := hpos
  exact settle_eq_self (hseq ▸ htoggle) (hseq ▸ hlatch) (hseq ▸ hstore)

/-- A local computation leads to the clock read of a wait, to CAN or to ENQ; without one the engine stands where it
stood (log 4). -/
theorem Endpoint.settle_cases (e : Endpoint) :
    e.settle = e ∨ (∃ call, e.settle.seq = .wb0 call) ∨ e.settle.seq = .tx1 ∨ e.settle.seq = .tx2 := by
  have hdispatch (f : Endpoint) :
      (∃ call, f.dispatch.seq = .wb0 call) ∨ f.dispatch.seq = .tx1 ∨ f.dispatch.seq = .tx2 := by
    rw [Endpoint.dispatch_eq]
    split <;> [skip; split] <;> simp
  cases hseq : e.seq with
  | toggle =>
    right
    simp only [settle, hseq, watchdog]
    split <;> exact hdispatch _
  | latch =>
    right; left
    simp only [settle, hseq, latchLength]
    split <;> simp
  | store =>
    right; left
    simp only [settle, hseq, storePayload]
    split <;> simp
  | _ => exact .inl (settle_at hseq (by simp))

/-- Only the engine's step adds to an endpoint's outbound stream. -/
theorem step_engine_of_outq_lt {s t : State} {x : Side} (hstep : step s = .next t)
    (hlt : (s.get x).outq.length < (t.get x).outq.length) :
    ∃ rest, s.sched = .engine x :: rest ∧ t.get x = (s.get x).engineTurn := by
  rcases step_get hstep x with h | ⟨addr, n, v, _, -, heq⟩ | ⟨_, -, heq⟩ | ⟨b, _, heq, -⟩ | ⟨⟨-, hle⟩, -, -⟩
  · exact h
  · rcases (s.get x).hostTurn_cases addr n v with ⟨off, -, hturn⟩ | hturn
    · obtain ⟨-, -, -, -, -, -, houtq, -⟩ := (s.get x).writeTurn_static off n v
      simp [heq, hturn, houtq] at hlt
    · simp [heq, hturn] at hlt
  · simp [heq] at hlt
  · simp [heq] at hlt
  · omega

theorem State.Sound.get {s : State} (h : s.Sound) (x : Side) : (s.get x).Sound := by
  cases x with
  | a => exact h.a
  | b => exact h.b

/-- A position that sends lies on the path of the phase held. -/
theorem Endpoint.Sound.sentByte?_eq_some {e : Endpoint} {b : Byte} (h : e.Sound) (hsent : e.sentByte? = some b) :
    e.phase = .receive ∧ e.seq = .rx3 ∧ b = Config.ack ∨
      e.phase = .transmit ∧ e.seq = .tx1 ∧ b = Config.can ∨
      e.phase = .transmit ∧ e.seq = .tx2 ∧ b = Config.enq ∨
      e.phase = .transmit ∧ e.seq = .tx4 ∧ b = e.outLen ∨
      e.phase = .transmit ∧ e.seq = .tx5 ∧ b = e.txByte e.i.toNat ∨
      e.phase = .transmit ∧ e.seq = .tx6 ∧ b = xorFold e.txByte e.outLen.toNat := by
  unfold Endpoint.sentByte? at hsent
  cases hseq : e.seq with
  | rx3 | tx1 | tx2 | tx4 | tx5 | tx6 =>
    have hpos := h.positionAt hseq
    simp only [hseq, Option.some.injEq] at hsent
    simp only [Endpoint.positionOk] at hpos
    simp [hpos, ← hsent]
  | _ => simp [hseq] at hsent

/-- Settles O54: the step is the engine's, its byte is `sentByte?` of the settled endpoint, and a payload byte's index is
still the one from before the step, since no local computation leads to TX5. -/
theorem bytesAreSentOnlyByWork : Obligations.BytesAreSentOnlyByWork := by
  intro s t x hsound hstep hlt e
  obtain ⟨rest, hsched, heq⟩ := step_engine_of_outq_lt hstep hlt
  have he : e.Sound := (hsound.get x).settle
  obtain ⟨-, -, -, houtLen, htxData, -, -, -, houtq, -, hbusy, -, hepoch, -⟩ := (s.get x).settle_static
  have hturn : (t.get x).outq = (s.get x).outq ++ e.sentByte?.toList := by
    rw [heq, Endpoint.engineTurn, Endpoint.callTurn_outq, houtq]
  have htx : e.txByte = (s.get x).txByte := by
    funext k
    simp only [Endpoint.txByte, Endpoint.bufByte, e, htxData, hepoch]
  have hindex (hseq : e.seq = .tx5) : e.i = (s.get x).i := by
    rcases (s.get x).settle_cases with hself | ⟨call, hpos⟩ | hpos | hpos
    · exact congrArg Endpoint.i hself
    · cases hseq.symm.trans hpos
    · cases hseq.symm.trans hpos
    · cases hseq.symm.trans hpos
  obtain ⟨b, hsent⟩ : ∃ b, e.sentByte? = some b := by
    refine Option.ne_none_iff_exists'.1 fun hnone => ?_
    simp [hturn, hnone] at hlt
  refine ⟨⟨rest, hsched⟩, ?_, b, by rw [hturn, hsent]; rfl, ?_⟩
  · rw [← hbusy]
    refine he.busyAt rfl fun hidle => ?_
    simp [Endpoint.sentByte?, show e.seq = .idle from hidle] at hsent
  · rw [← houtLen, ← htx]
    rcases he.sentByte?_eq_some hsent with h | h | h | h | ⟨hphase, hseq, hb⟩ | h
    · exact .inl h
    · exact .inr (.inl h)
    · exact .inr (.inr (.inl h))
    · exact .inr (.inr (.inr (.inl h)))
    · exact .inr (.inr (.inr (.inr (.inl ⟨hphase, hseq, hindex hseq ▸ hb⟩))))
    · exact .inr (.inr (.inr (.inr (.inr h))))

end Sys2Proof.Machine
end

section
/-! Runs of several steps as what they do to the two endpoints, and the engine's turns of a whole frame: the bounded wait
that finds its byte, the frame sent, the frame received. The round trip of 95_test_vectors.md V1.2 is put together from
them. -/

namespace Sys2Proof.Machine

/-! Runs. -/

theorem runSteps_add {m : Nat} {s t : State} (h : runSteps m s = .next t) (n : Nat) :
    runSteps (m + n) s = runSteps n t := by
  induction m generalizing s with
  | zero =>
    obtain rfl := Host.Outcome.next.inj h
    rw [Nat.zero_add]
  | succ m ih =>
    rw [Nat.succ_add]
    simp only [runSteps] at h ⊢
    cases hstep : step s with
    | next u => rw [hstep] at h; exact ih h
    | fault r => simp [hstep] at h
    | refused r => simp [hstep] at h

/-- The events `evs`, standing first in the schedule, take `x` from `e` to `e'` and its peer from `f` to `f'`, whatever else
the link holds. -/
def Runs (x : Side) (e f : Endpoint) (evs : List Event) (e' f' : Endpoint) : Prop :=
  ∀ (s : State) (later : List Event), s.get x = e → s.get x.other = f → s.sched = evs ++ later →
    ∃ t, runSteps evs.length s = .next t ∧ t.sched = later ∧ t.get x = e' ∧ t.get x.other = f'

theorem Runs.nil (x : Side) (e f : Endpoint) : Runs x e f [] e f := fun s _ he hf hsched =>
  ⟨s, rfl, hsched, he, hf⟩

theorem Runs.append {x : Side} {e f e' f' e'' f'' : Endpoint} {evs evs' : List Event} (h : Runs x e f evs e' f')
    (h' : Runs x e' f' evs' e'' f'') : Runs x e f (evs ++ evs') e'' f'' := by
  intro s later he hf hsched
  obtain ⟨t, hrun, hsched', he', hf'⟩ := h s (evs' ++ later) he hf (by rw [hsched, List.append_assoc])
  obtain ⟨u, hrun', hu⟩ := h' t later he' hf' hsched'
  exact ⟨u, by rw [List.length_append, runSteps_add hrun, hrun'], hu⟩

/-- The same run, told from the peer's side. -/
theorem Runs.symm {x : Side} {e f e' f' : Endpoint} {evs : List Event} (h : Runs x.other f e evs f' e') :
    Runs x e f evs e' f' := by
  intro s later he hf hsched
  obtain ⟨t, hrun, hsched', hf', he'⟩ := h s later hf (by rwa [Side.other_other]) hsched
  exact ⟨t, hrun, hsched', by rwa [Side.other_other] at he', hf'⟩

/-- One event. -/
theorem Runs.of_step {x : Side} {e f e' f' : Endpoint} {ev : Event}
    (h : ∀ (s : State) (later : List Event), s.get x = e → s.get x.other = f → s.sched = ev :: later →
      ∃ t, step s = .next t ∧ t.sched = later ∧ t.get x = e' ∧ t.get x.other = f') : Runs x e f [ev] e' f' := by
  intro s later he hf hsched
  obtain ⟨t, hstep, ht⟩ := h s later he hf hsched
  exact ⟨t, by simp [runSteps, hstep], ht⟩

theorem Runs.engine (x : Side) (e f : Endpoint) : Runs x e f [.engine x] e.engineTurn f := by
  refine Runs.of_step fun s later he hf hsched => ⟨(s.taken x later).put x (s.get x).engineTurn, ?_, ?_, ?_, ?_⟩
  · rw [step_eq, hsched]; rfl
  · exact State.put_sched ..
  · rw [State.get_put, he]
  · rw [State.get_put_other, State.taken_get, hf]

/-- A host's write to CMD (30_encoding.md R90). -/
theorem Runs.command {x : Side} {e : Endpoint} {addr : Nat} (haddr : addr = e.hostAddr Config.offCmd)
    (hidle : e.busy = false) (v : Word) (f : Endpoint) :
    Runs x e f [.hostWrite x addr .w4 v] (e.commandTurn (decodeCmd v)) f := by
  refine Runs.of_step fun s later he hf hsched => ⟨_, step_of_hostWrite hsched, State.put_sched .., ?_, ?_⟩
  · rw [State.get_put, he, haddr, Endpoint.hostTurn_hostAddr, Endpoint.writeTurn, if_neg (by simp [hidle]),
      if_pos ⟨rfl, rfl⟩]
  · rw [State.get_put_other, State.taken_get, hf]

/-- The line delivers the oldest byte (45_transport_adapter.md R227). -/
theorem Runs.deliver {x : Side} {e : Endpoint} {b : Byte} {rest : List Byte} (houtq : e.outq = b :: rest)
    (f : Endpoint) : Runs x e f [.deliver x] { e with outq := rest } (f.arrive b) := by
  refine Runs.of_step fun s later he hf hsched => ⟨({ s with sched := later } : State).lineDeliver x, ?_, ?_⟩
  · rw [step_eq, hsched]
  · subst he hf
    simp [State.lineDeliver, State.takeOut, houtq]

theorem Runs.engines (x : Side) (e f : Endpoint) (n : Nat) :
    Runs x e f (List.replicate n (.engine x)) (Endpoint.engineTurn^[n] e) f := by
  induction n generalizing e with
  | zero => exact Runs.nil x e f
  | succ n ih => exact (Runs.engine x e f).append (ih e.engineTurn)

theorem Runs.engines_eq {x : Side} {e e' f : Endpoint} {n : Nat} (h : Endpoint.engineTurn^[n] e = e') :
    Runs x e f (List.replicate n (.engine x)) e' f := h ▸ Runs.engines x e f n

/-- The line delivers all that was sent. -/
theorem Runs.deliverAll {x : Side} {e : Endpoint} {bytes : List Byte} (houtq : e.outq = bytes) (f : Endpoint) :
    Runs x e f (List.replicate bytes.length (.deliver x)) { e with outq := [] } { f with inq := f.inq ++ bytes } := by
  induction bytes generalizing e f with
  | nil =>
    have he : ({ e with outq := [] } : Endpoint) = e := by rw [← houtq]
    rw [he, List.append_nil]
    exact Runs.nil x e f
  | cons b rest ih =>
    have h := (Runs.deliver houtq f).append (ih (e := { e with outq := rest }) rfl (f.arrive b))
    rw [Endpoint.arrive_inq, List.append_assoc] at h
    exact h

/-! The engine's turns. -/

/-- Where no local computation is left, the turn is the adapter call. -/
theorem Endpoint.engineTurn_at {e : Endpoint} {pos : Seq} (hseq : e.seq = pos)
    (hpos : pos ∉ [Seq.toggle, Seq.latch, Seq.store]) : e.engineTurn = e.callTurn := by
  rw [engineTurn, settle_at hseq hpos]

/-- Three turns of a wait whose byte is there: the clock is read, the poll finds the byte, the byte is taken
(44_timeout.md R200, R202). -/
theorem Endpoint.engineTurn_wait {e : Endpoint} {call : Wait} (hseq : e.settle.seq = .wb0 call)
    (hinq : e.settle.inq ≠ []) :
    engineTurn^[3] e = ({ e.settle with wstart := e.settle.clock, seq := .rd call } : Endpoint).callTurn := by
  have hstart : e.engineTurn = e.settle.waitStart call := by
    simp only [engineTurn, callTurn, hseq, engineStep]
  have hpoll : (e.settle.waitStart call).engineTurn = { e.settle.waitStart call with seq := .rd call } := by
    rw [engineTurn_at (waitStart_seq _ _) (by simp)]
    simp only [callTurn, waitStart_seq, engineStep, waitPoll_eq, waitStart_inq, hinq, if_false]
  show engineTurn (engineTurn (engineTurn e)) = _
  rw [hstart, hpoll]
  exact engineTurn_at rfl (by simp)

/-- What `n` steps along a sequence of states come to. -/
theorem iterate_eq_of_forall_lt {α : Type} {f : α → α} {p : Nat → α} {n : Nat} (h : ∀ j < n, f (p j) = p (j + 1)) :
    f^[n] (p 0) = p n := by
  induction n with
  | zero => rfl
  | succ n ih => rw [Function.iterate_succ_apply', ih fun j hj => h j (by omega), h n (by omega)]

/-- Away from the three positions with a local computation left, a wait starts from the endpoint as it is. -/
theorem Endpoint.engineTurn_wait_at {e : Endpoint} {call : Wait} (hseq : e.seq = .wb0 call) (hinq : e.inq ≠ []) :
    engineTurn^[3] e = ({ e with wstart := e.clock, seq := .rd call } : Endpoint).callTurn := by
  have hsettle : e.settle = e := settle_at hseq (by simp)
  rw [engineTurn_wait (by rwa [hsettle]) (by rwa [hsettle]), hsettle]

/-! The frame sent (42_transmit.md R174, R175). -/

theorem Endpoint.payload_length (e : Endpoint) : e.payload.length = e.outLength := by simp [Endpoint.payload]

theorem Endpoint.payload_getD (e : Endpoint) {k : Nat} (hk : k < e.outLength) : e.payload.getD k 0 = e.txByte k := by
  simp [Endpoint.payload, List.getD_eq_getElem?_getD, hk]

theorem Endpoint.xorFold_payload (e : Endpoint) :
    xorFold (fun k => e.payload.getD k 0) e.payload.length = xorFold e.txByte e.outLength := by
  rw [e.payload_length]
  exact xorFold_congr fun k hk => e.payload_getD hk

/-- TX2: ENQ is sent (42_transmit.md R172). -/
theorem Endpoint.engineTurn_tx2 {e : Endpoint} (hseq : e.seq = .tx2) :
    e.engineTurn = { e.writeByte Config.enq with seq := .wb0 .tx3 } := by
  rw [engineTurn_at hseq (by simp)]
  simp only [callTurn, hseq]

/-- TX4: the length is sent. -/
theorem Endpoint.engineTurn_tx4 {e : Endpoint} (hseq : e.seq = .tx4) (hlen : e.outLen ≠ 0) :
    e.engineTurn = { e.writeByte e.outLen with i := 0, seq := .tx5 } := by
  rw [engineTurn_at hseq (by simp)]
  simp only [callTurn, hseq, engineStep, sendLength_eq hlen]

/-- TX5: a payload byte is sent. -/
theorem Endpoint.engineTurn_tx5 {e : Endpoint} (hseq : e.seq = .tx5) :
    e.engineTurn = { e.writeByte (e.txByte e.i.toNat) with
      i := e.i + 1, seq := if (e.i + 1).toNat < e.outLength then .tx5 else .tx6 } := by
  rw [engineTurn_at hseq (by simp)]
  simp only [callTurn, hseq, engineStep, sendPayload]
  by_cases hmore : (e.i + 1).toNat < e.outLength
  · rw [if_pos hmore]
    exact if_pos hmore
  · rw [if_neg hmore]
    exact if_neg hmore

/-- TX6: the checksum is sent. -/
theorem Endpoint.engineTurn_tx6 {e : Endpoint} (hseq : e.seq = .tx6) :
    e.engineTurn = { e.writeByte (xorFold e.txByte e.outLength) with
      cksum := xorFold e.txByte e.outLength, seq := .tx7 } := by
  rw [engineTurn_at hseq (by simp)]
  simp only [callTurn, hseq, engineStep, sendChecksum]
  rfl

/-- TX7: the command is complete. -/
theorem Endpoint.engineTurn_tx7 {e : Endpoint} (hseq : e.seq = .tx7) :
    e.engineTurn = { e with phase := .receive, wd := e.clock }.complete .frameTransmitted := by
  rw [engineTurn_at hseq (by simp)]
  simp only [callTurn, hseq, engineStep, finishTransmit]

/-- The first `j` payload bytes are sent. -/
def Endpoint.sentPayload (e : Endpoint) (j : Nat) : Endpoint :=
  { e with
    outq := e.outq ++ (List.range j).map e.txByte
    i := BitVec.ofNat 9 j
    seq := if j < e.outLength then .tx5 else .tx6 }

theorem Endpoint.engineTurn_sentPayload (e : Endpoint) {j : Nat} (hj : j < e.outLength) :
    (e.sentPayload j).engineTurn = e.sentPayload (j + 1) := by
  have hlen : e.outLength < 256 := e.outLen.isLt
  have hindex : (BitVec.ofNat 9 j).toNat = j := Nat.mod_eq_of_lt (by omega)
  have hnext : BitVec.ofNat 9 j + 1 = BitVec.ofNat 9 (j + 1) := (BitVec.ofNat_add j 1).symm
  have hnext' : (BitVec.ofNat 9 (j + 1)).toNat = j + 1 := Nat.mod_eq_of_lt (by omega)
  rw [engineTurn_tx5 (if_pos hj)]
  simp only [sentPayload, writeByte, hnext, hnext', hindex, List.range_succ, List.map_append, List.map_singleton,
    List.append_assoc]
  rfl

/-- What a sender is after its frame: the length, the payload and their checksum are sent, the command is complete. -/
def Endpoint.transmitted (e : Endpoint) : Endpoint :=
  { e with
    outq := e.outq ++ e.outLen :: (e.payload ++ [xorFold e.txByte e.outLength])
    i := BitVec.ofNat 9 e.outLength
    cksum := xorFold e.txByte e.outLength
    phase := .receive
    wd := e.clock
    code := .frameTransmitted
    busy := false
    seq := .idle }

/-- From TX4 to the end: the length, the payload, the checksum, the completion. -/
theorem Endpoint.engineTurn_sendFrame {e : Endpoint} (hseq : e.seq = .tx4) (hlen : e.outLen ≠ 0) :
    engineTurn^[e.outLength + 3] e = e.transmitted := by
  have hpos : 0 < e.outLen.toNat := Nat.pos_of_ne_zero fun hzero => hlen (BitVec.eq_of_toNat_eq hzero)
  have hlength : engineTurn^[1] e = sentPayload { e with outq := e.outq ++ [e.outLen] } 0 := by
    rw [Function.iterate_one, engineTurn_tx4 hseq hlen]
    simp only [sentPayload, outLength, hpos, if_true, List.range_zero, List.map_nil, List.append_nil]
    rfl
  have hpayload := iterate_eq_of_forall_lt (p := sentPayload { e with outq := e.outq ++ [e.outLen] })
    (n := e.outLength) fun j hj => engineTurn_sentPayload _ hj
  have hend (f : Endpoint) (hf : f.seq = .tx6) : engineTurn^[2] f =
      ({ f.writeByte (xorFold f.txByte f.outLength) with
        cksum := xorFold f.txByte f.outLength, phase := .receive, wd := f.clock } : Endpoint).complete .frameTransmitted := by
    show engineTurn (engineTurn f) = _
    rw [engineTurn_tx6 hf]
    exact engineTurn_tx7 rfl
  have hsplit : e.outLength + 3 = 2 + (e.outLength + 1) := by omega
  rw [hsplit, Function.iterate_add_apply, Function.iterate_add_apply, hlength, hpayload,
    hend _ (if_neg (Nat.lt_irrefl _))]
  simp only [complete, writeByte, sentPayload, List.append_assoc, List.singleton_append]
  rfl

/-- A whole attempt from its wait for the ACK, which is there. -/
theorem Endpoint.engineTurn_transmit {e : Endpoint} {rest : List Byte} (hseq : e.seq = .wb0 .tx3)
    (hinq : e.inq = Config.ack :: rest) (hlen : e.outLen ≠ 0) :
    engineTurn^[e.outLength + 6] e = transmitted { e with wstart := e.clock, inq := rest } := by
  have hack : engineTurn^[3] e = { e with wstart := e.clock, inq := rest, seq := .tx4 } := by
    rw [engineTurn_wait_at hseq (by simp [hinq])]
    simp [callTurn, hinq]
  rw [show e.outLength + 6 = (e.outLength + 3) + 3 from rfl, Function.iterate_add_apply, hack]
  exact engineTurn_sendFrame (e := { e with wstart := e.clock, inq := rest, seq := .tx4 }) rfl hlen

/-! The frame received (41_receive.md R144 to R150). -/

/-- RX3: ACK is sent. -/
theorem Endpoint.engineTurn_rx3 {e : Endpoint} (hseq : e.seq = .rx3) :
    e.engineTurn = { e.writeByte Config.ack with seq := .wb0 .rx4 } := by
  rw [engineTurn_at hseq (by simp)]
  simp only [callTurn, hseq]

/-- RX8: the frame is applied. -/
theorem Endpoint.engineTurn_rx8 {e : Endpoint} (hseq : e.seq = .rx8) : e.engineTurn = e.applyFrame := by
  rw [engineTurn_at hseq (by simp)]
  simp only [callTurn, hseq, engineStep]

/-- ENQ read, ACK sent. -/
theorem Endpoint.engineTurn_answer {e : Endpoint} {rest : List Byte} (hseq : e.seq = .wb0 .rx1)
    (hinq : e.inq = Config.enq :: rest) :
    engineTurn^[4] e = { e with
      wstart := e.clock, inq := rest, outq := e.outq ++ [Config.ack], seq := .wb0 .rx4 } := by
  have henq : engineTurn^[3] e = { e with wstart := e.clock, inq := rest, seq := .rx3 } := by
    rw [engineTurn_wait_at hseq (by simp [hinq])]
    simp [callTurn, hinq]
  rw [show 4 = 1 + 3 from rfl, Function.iterate_add_apply, henq, Function.iterate_one]
  exact engineTurn_rx3 (e := { e with wstart := e.clock, inq := rest, seq := .rx3 }) rfl

/-- Three turns of a wait for a data byte that is there. -/
theorem Endpoint.engineTurn_wait_data {e : Endpoint} {call : Wait} {b : Byte} {rest : List Byte}
    (hseq : e.settle.seq = .wb0 call) (hinq : e.settle.inq = b :: rest) (hrx1 : call ≠ .rx1) (htx3 : call ≠ .tx3) :
    engineTurn^[3] e =
      ({ e.settle with wstart := e.settle.clock, seq := .rd call, inq := rest } : Endpoint).takeData call b := by
  rw [engineTurn_wait hseq (by simp [hinq])]
  exact callTurn_data (e := { e.settle with wstart := e.settle.clock, seq := .rd call }) rfl hinq hrx1 htx3

/-- Payload byte `j` is read and not yet stored, the `j` bytes before it are in FRAME_BUF. -/
def Endpoint.heldPayload (e : Endpoint) (data tail : List Byte) (j : Nat) : Endpoint :=
  { e with
    frameBuf := e.frameBuf.copyIn 0 (fun k => data.getD k 0) j
    count := BitVec.ofNat 16 j
    i := BitVec.ofNat 9 j
    r := data.getD j 0
    wstart := e.clock
    inq := data.drop (j + 1) ++ tail
    seq := .store }

/-- All payload bytes are stored and the checksum of them computed; the wait for the sender's begins. -/
def Endpoint.storedPayload (e : Endpoint) (data tail : List Byte) : Endpoint :=
  { e with
    frameBuf := e.frameBuf.copyIn 0 (fun k => data.getD k 0) data.length
    count := BitVec.ofNat 16 data.length
    i := BitVec.ofNat 9 data.length
    r := data.getD (data.length - 1) 0
    cksum := xorFold (fun k => data.getD k 0) data.length
    wstart := e.clock
    inq := tail
    seq := .wb0 .rx7 }

section
variable {e : Endpoint} {data tail : List Byte} {j : Nat}

theorem Endpoint.heldPayload_index (hj : j < 512) : (e.heldPayload data tail j).i.toNat = j := Nat.mod_eq_of_lt hj

theorem Endpoint.heldPayload_next : (e.heldPayload data tail j).i + 1 = BitVec.ofNat 9 (j + 1) :=
  (BitVec.ofNat_add j 1).symm

theorem Endpoint.heldPayload_count (hj : j < 512) :
    (e.heldPayload data tail j).i.setWidth 16 + 1 = BitVec.ofNat 16 (j + 1) := by
  apply BitVec.eq_of_toNat_eq
  rw [count_toNat, heldPayload_index hj, BitVec.toNat_ofNat, Nat.mod_eq_of_lt (by omega)]

/-- The byte held goes to FRAME_BUF behind those before it. -/
theorem Endpoint.storeFrame_heldPayload (hj : j < 500) :
    (e.heldPayload data tail j).storeFrame (e.heldPayload data tail j).i.toNat (e.heldPayload data tail j).r =
      { e.heldPayload data tail j with frameBuf := e.frameBuf.copyIn 0 (fun k => data.getD k 0) (j + 1) } := by
  rw [heldPayload_index (by omega), storeFrame, if_pos (show j < Config.bufCapacity from hj), Memory.copyIn, Nat.zero_add]
  rfl

theorem Endpoint.settle_heldPayload (hlen : data.length = e.len.toNat) (hj : j + 1 < data.length) :
    (e.heldPayload data tail j).settle =
      { e.heldPayload data tail (j + 1) with
        r := data.getD j 0, inq := data.drop (j + 1) ++ tail, seq := .wb0 .rx5 } := by
  have hlt := e.len.isLt
  have hmore : (e.heldPayload data tail j).i.toNat + 1 < (e.heldPayload data tail j).len.toNat := by
    rw [heldPayload_index (by omega)]
    exact hlen ▸ hj
  show (e.heldPayload data tail j).storePayload = _
  rw [storePayload_more hmore, storeFrame_heldPayload (by omega), heldPayload_count (by omega), heldPayload_next]
  rfl

theorem Endpoint.settle_heldPayload_last (hlen : data.length = e.len.toNat) (hj : j + 1 = data.length) :
    (e.heldPayload data tail j).settle = e.storedPayload data tail := by
  have hlt := e.len.isLt
  have hlast : (e.heldPayload data tail j).i.toNat + 1 = (e.heldPayload data tail j).len.toNat := by
    rw [heldPayload_index (by omega)]
    exact hlen ▸ hj
  have hfold : xorFold ({ e.heldPayload data tail j with
        frameBuf := e.frameBuf.copyIn 0 (fun k => data.getD k 0) (j + 1) } : Endpoint).frameByte
      (e.heldPayload data tail j).len.toNat = xorFold (fun k => data.getD k 0) data.length := by
    show xorFold _ e.len.toNat = _
    rw [← hlen, ← hj]
    refine xorFold_congr fun k hk => ?_
    rw [frameByte, bufByte_copyIn _ _ _ _ _ _ _ (show 0 + (j + 1) ≤ 500 by omega), if_pos (by omega)]
    rfl
  show (e.heldPayload data tail j).storePayload = _
  rw [storePayload_last hlast, storeFrame_heldPayload (by omega), heldPayload_count (by omega), heldPayload_next,
    hfold, hj, storedPayload, ← hj, Nat.add_sub_cancel, heldPayload, hj, List.drop_length]
  rfl

theorem Endpoint.engineTurn_heldPayload (hlen : data.length = e.len.toNat) (hj : j + 1 < data.length) :
    engineTurn^[3] (e.heldPayload data tail j) = e.heldPayload data tail (j + 1) := by
  have hsettle := settle_heldPayload (tail := tail) hlen hj
  have hinq : (e.heldPayload data tail j).settle.inq = data.getD (j + 1) 0 :: (data.drop (j + 2) ++ tail) := by
    rw [hsettle]
    show data.drop (j + 1) ++ tail = _
    rw [List.drop_eq_getElem_cons hj, List.cons_append, List.getD_eq_getElem _ _ hj]
  rw [engineTurn_wait_data (call := .rx5) (by rw [hsettle]) hinq nofun nofun, hsettle]
  rfl

end

/-- The turns from the wait for the length byte to the last payload byte's, for a frame of any length. -/
theorem Endpoint.settle_receivePayload {e : Endpoint} {n : Byte} {data tail : List Byte} (hseq : e.seq = .wb0 .rx4)
    (hinq : e.inq = n :: (data ++ tail)) (hlen : data.length = n.toNat) :
    (engineTurn^[3 * data.length + 3] e).settle = storedPayload { e with len := n } data tail := by
  have hself : e.settle = e := settle_at hseq (by simp)
  have hlatch : engineTurn^[3] e = { e with wstart := e.clock, inq := data ++ tail, r := n, seq := .latch } := by
    rw [engineTurn_wait_data (call := .rx4) (by rwa [hself]) (by rwa [hself]) nofun nofun, hself]
    rfl
  rw [Function.iterate_add_apply, hlatch]
  cases data with
  | nil =>
    have hn : n = 0 := BitVec.eq_of_toNat_eq hlen.symm
    show latchLength _ = _
    rw [latchLength_zero _ hn, hn]
    rfl
  | cons b data =>
    have hn : n ≠ 0 := by
      rintro rfl
      simp at hlen
    have hsettle : ({ e with wstart := e.clock, inq := b :: data ++ tail, r := n, seq := .latch } : Endpoint).settle =
        { e with
          wstart := e.clock, inq := b :: data ++ tail, r := n, len := n, count := 0, i := 0, seq := .wb0 .rx5 } :=
      latchLength_eq _ hn
    have hfirst : engineTurn^[3] { e with wstart := e.clock, inq := b :: data ++ tail, r := n, seq := .latch } =
        heldPayload { e with len := n } (b :: data) tail 0 := by
      rw [engineTurn_wait_data (call := .rx5) (b := b) (rest := data ++ tail) (by rw [hsettle]) (by rw [hsettle]; rfl)
        nofun nofun, hsettle]
      rfl
    have hloop := iterate_eq_of_forall_lt (f := engineTurn^[3]) (n := data.length)
      (p := heldPayload { e with len := n } (b :: data) tail) fun j hj =>
        engineTurn_heldPayload hlen (by simpa using hj)
    rw [List.length_cons, Nat.mul_succ, Function.iterate_add_apply, hfirst, Function.iterate_mul, hloop]
    exact settle_heldPayload_last hlen rfl

/-- The turns from the wait for the length byte to the checksum byte. -/
theorem Endpoint.engineTurn_receive {e : Endpoint} {n ck : Byte} {data rest : List Byte} (hseq : e.seq = .wb0 .rx4)
    (hinq : e.inq = n :: (data ++ ck :: rest)) (hlen : data.length = n.toNat) :
    engineTurn^[3 * data.length + 6] e =
      checkFrame { storedPayload { e with len := n } data rest with seq := .rd .rx7 } ck := by
  have hsettle := settle_receivePayload hseq hinq hlen
  rw [show 3 * data.length + 6 = 3 + (3 * data.length + 3) by omega, Function.iterate_add_apply,
    engineTurn_wait_data (call := .rx7) (b := ck) (rest := rest) (by rw [hsettle]; rfl) (by rw [hsettle]; rfl)
    nofun nofun, hsettle]
  rfl

/-- A frame whose checksum byte is the fold of its payload is applied (41_receive.md R150). -/
theorem Endpoint.engineTurn_receive_applied {e : Endpoint} {n : Byte} {data rest : List Byte} (hseq : e.seq = .wb0 .rx4)
    (hinq : e.inq = n :: (data ++ xorFold (fun k => data.getD k 0) data.length :: rest))
    (hlen : data.length = n.toNat) :
    engineTurn^[3 * data.length + 7] e =
      applyFrame { storedPayload { e with len := n } data rest with seq := .rx8 } := by
  have hcheck : checkFrame { storedPayload { e with len := n } data rest with seq := .rd .rx7 }
      (xorFold (fun k => data.getD k 0) data.length) =
      { storedPayload { e with len := n } data rest with seq := .rx8 } := if_pos rfl
  rw [Function.iterate_succ_apply', engineTurn_receive hseq hinq hlen, hcheck]
  exact engineTurn_rx8 rfl

theorem Endpoint.applyFrame_rxByte (e : Endpoint) {k : Nat} (hk : k < e.len.toNat) :
    e.applyFrame.rxByte k = e.frameByte k := by
  have hlt := e.len.isLt
  show e.bufByte .rxData (e.rxData.copyIn 0 e.frameByte e.len.toNat) k = _
  rw [bufByte_copyIn _ _ _ _ _ _ _ (show 0 + e.len.toNat ≤ 256 by omega), if_pos (by omega), Nat.sub_zero]

theorem Endpoint.storedPayload_frameByte {e : Endpoint} {data : List Byte} (hlen : data.length ≤ 255) (tail : List Byte)
    {k : Nat} (hk : k < data.length) : (e.storedPayload data tail).frameByte k = data.getD k 0 := by
  show e.bufByte .frameBuf (e.frameBuf.copyIn 0 (fun k => data.getD k 0) data.length) k = _
  rw [bufByte_copyIn _ _ _ _ _ _ _ (show 0 + data.length ≤ 500 by omega), if_pos (by omega), Nat.sub_zero]

/-! The round trip. -/

theorem decodeCmd_work : decodeCmd 0x01 = .work := (decodeCmd_eq_iff _ rfl rfl).2 (by decide)

/-- WORK under External in Transmit phase with bytes to send stands at ENQ (40_phase_control.md R120, R123). -/
theorem Endpoint.commandTurn_work_transmit {e : Endpoint} (hpolicy : e.params.policy = .external)
    (hphase : e.phase = .transmit) (hlen : e.outLen ≠ 0) :
    e.commandTurn (decodeCmd 0x01) = { e with busy := true, seq := .tx2 } := by
  rw [decodeCmd_work]
  simp only [commandTurn, startWork, hpolicy, dispatch, hphase]
  exact if_neg hlen

/-- WORK under External in Receive phase stands at the wait for the first byte. -/
theorem Endpoint.commandTurn_work_receive {e : Endpoint} (hpolicy : e.params.policy = .external)
    (hphase : e.phase = .receive) : e.commandTurn (decodeCmd 0x01) = { e with busy := true, seq := .wb0 .rx1 } := by
  rw [decodeCmd_work]
  simp only [commandTurn, startWork, hpolicy, dispatch, hphase]

section
variable {x : Side} {e f : Endpoint}

/-- WORK at the sender, and ENQ sent and delivered. -/
theorem Runs.sendEnq {addr : Nat} (haddr : addr = e.hostAddr Config.offCmd) (hidle : e.busy = false)
    (hpolicy : e.params.policy = .external) (hphase : e.phase = .transmit) (hlen : e.outLen ≠ 0) (houtq : e.outq = []) :
    Runs x e f [.hostWrite x addr .w4 0x01, .engine x, .deliver x] { e with busy := true, outq := [], seq := .wb0 .tx3 }
      (f.arrive Config.enq) := by
  have hwork := Runs.command (x := x) haddr hidle 0x01 f
  have henq := Runs.engine x { e with busy := true, seq := .tx2 } f
  rw [Endpoint.commandTurn_work_transmit hpolicy hphase hlen] at hwork
  rw [Endpoint.engineTurn_tx2 rfl] at henq
  have hsent : e.outq ++ [Config.enq] = [Config.enq] := by rw [houtq, List.nil_append]
  exact (hwork.append henq).append (Runs.deliver hsent f)

/-- WORK at the receiver, whose FIFO holds ENQ, and ACK sent and delivered. -/
theorem Runs.answerAck {addr : Nat} (haddr : addr = f.hostAddr Config.offCmd) (hidle : f.busy = false)
    (hpolicy : f.params.policy = .external) (hphase : f.phase = .receive) (hinq : f.inq = [Config.enq])
    (houtq : f.outq = []) :
    Runs x e f (.hostWrite x.other addr .w4 0x01 :: (List.replicate 4 (Event.engine x.other) ++ [.deliver x.other]))
      (e.arrive Config.ack) { f with busy := true, inq := [], outq := [], wstart := f.clock, seq := .wb0 .rx4 } := by
  have hwork := Runs.command (x := x.other) haddr hidle 0x01 e
  rw [Endpoint.commandTurn_work_receive hpolicy hphase] at hwork
  have hack := Runs.engines_eq (x := x.other) (f := e)
    (Endpoint.engineTurn_answer (e := { f with busy := true, seq := .wb0 .rx1 }) rfl hinq)
  have hsent : f.outq ++ [Config.ack] = [Config.ack] := by rw [houtq, List.nil_append]
  exact Runs.symm (hwork.append (hack.append (Runs.deliver hsent e)))

/-- The sender's frame, from the wait for the ACK that is there: sent, and delivered byte by byte. -/
theorem Runs.sendFrame (hseq : e.seq = .wb0 .tx3) (hinq : e.inq = [Config.ack]) (hlen : e.outLen ≠ 0)
    (houtq : e.outq = []) :
    Runs x e f (List.replicate (e.outLength + 6) (.engine x) ++ List.replicate (e.outLength + 2) (.deliver x))
      { Endpoint.transmitted { e with wstart := e.clock, inq := [] } with outq := [] }
      { f with inq := f.inq ++ e.outLen :: (e.payload ++ [xorFold e.txByte e.outLength]) } := by
  have hframe := Runs.engines_eq (x := x) (f := f) (Endpoint.engineTurn_transmit hseq hinq hlen)
  have hsent : e.outq ++ e.outLen :: (e.payload ++ [xorFold e.txByte e.outLength]) =
      e.outLen :: (e.payload ++ [xorFold e.txByte e.outLength]) := by rw [houtq, List.nil_append]
  have hbytes : e.outLength + 2 = (e.outLen :: (e.payload ++ [xorFold e.txByte e.outLength])).length := by
    simp [Endpoint.payload_length]
  rw [hbytes]
  exact hframe.append (Runs.deliverAll hsent f)

/-- The receiver's part, from the wait for the length byte: a frame with the right checksum is applied. -/
theorem Runs.receiveFrame {n : Byte} {data : List Byte} (hseq : f.seq = .wb0 .rx4)
    (hinq : f.inq = n :: (data ++ [xorFold (fun k => data.getD k 0) data.length])) (hlen : data.length = n.toNat) :
    Runs x e f (List.replicate (3 * data.length + 7) (.engine x.other)) e
      (Endpoint.applyFrame { Endpoint.storedPayload { f with len := n } data [] with seq := .rx8 }) :=
  Runs.symm (Runs.engines_eq (Endpoint.engineTurn_receive_applied hseq hinq hlen))

end

/-- The schedule in the parts its runs are proved in. -/
theorem State.exchange_eq (s : State) (x : Side) (n : Nat) : s.exchange x n =
    [s.workEvent x, Event.engine x, Event.deliver x] ++
      (s.workEvent x.other :: (List.replicate 4 (Event.engine x.other) ++ [Event.deliver x.other])) ++
      (List.replicate (n + 6) (Event.engine x) ++ List.replicate (n + 2) (Event.deliver x)) ++
      List.replicate (3 * n + 7) (Event.engine x.other) := by
  simp only [State.exchange, List.append_assoc, List.cons_append, List.nil_append]

theorem State.exchange_length (s : State) (x : Side) (n : Nat) : (s.exchange x n).length = 5 * n + 24 := by
  simp only [State.exchange, List.length_append, List.length_replicate, List.length_cons, List.length_nil]
  omega

/-- Settles O60: the schedule is the handshake, the sender's frame and the receiver's part of it; the bytes applied are the
payload sent, whose fold is the checksum byte. -/
theorem roundTripDeliversThePayload : Obligations.RoundTripDeliversThePayload := by
  intro s x later n hn hidle hidle' hpolicy hpolicy' hphase hphase' hinq houtq hinq' houtq' hsched
  have hlen : (s.get x).outLen ≠ 0 := fun hzero => hn (by simp [n, hzero])
  have hpayload : (s.get x).payload.length = n := (s.get x).payload_length
  have henq := Runs.sendEnq (x := x) (f := s.get x.other) rfl hidle hpolicy hphase hlen houtq
  have hack := Runs.answerAck (x := x) (e := { s.get x with busy := true, outq := [], seq := .wb0 .tx3 })
    (f := (s.get x.other).arrive Config.enq) rfl hidle' hpolicy' hphase' (by simp [hinq']) houtq'
  have hframe := Runs.sendFrame (x := x)
    (e := { s.get x with busy := true, outq := [], seq := .wb0 .tx3 }.arrive Config.ack)
    (f := { (s.get x.other).arrive Config.enq with
      busy := true, inq := [], outq := [], wstart := (s.get x.other).clock, seq := .wb0 .rx4 })
    rfl (by simp [hinq]) hlen rfl
  have hall := ((henq.append hack).append hframe).append
    (Runs.receiveFrame (data := (s.get x).payload) (n := (s.get x).outLen) rfl
      (by rw [(s.get x).xorFold_payload]; rfl) hpayload)
  rw [hpayload] at hall
  obtain ⟨t, hrun, hlater, he, hf⟩ := hall s later rfl rfl (hsched.trans (congrArg (· ++ later) (s.exchange_eq x n)))
  have hsteps : runSteps (5 * n + 24) s = .next t := by
    rw [← s.exchange_length x n, s.exchange_eq]
    exact hrun
  have hbyte (k : Nat) (hk : k < n) : (t.get x.other).rxByte k = (s.get x).txByte k := by
    rw [hf, Endpoint.applyFrame_rxByte _ hk]
    exact (Endpoint.storedPayload_frameByte (hpayload.trans_le (Nat.le_of_lt_succ (s.get x).outLen.isLt)) []
      (hk.trans_eq hpayload.symm)).trans ((s.get x).payload_getD hk)
  obtain ⟨hbusy, hcode, hflip, hin, hout⟩ : (t.get x).busy = false ∧ (t.get x).code = .frameTransmitted ∧
      (t.get x).phase = .receive ∧ (t.get x).inq = [] ∧ (t.get x).outq = [] := by
    rw [he]
    exact ⟨rfl, rfl, rfl, rfl, rfl⟩
  obtain ⟨hbusy', hcode', hflip', hrxLen, hin', hout'⟩ : (t.get x.other).busy = false ∧
      (t.get x.other).code = .frameApplied ∧ (t.get x.other).phase = .transmit ∧ (t.get x.other).rxLen.toNat = n ∧
      (t.get x.other).inq = [] ∧ (t.get x.other).outq = [] := by
    rw [hf]
    exact ⟨rfl, rfl, rfl, rfl, rfl, rfl⟩
  exact ⟨t, hsteps, hlater, hbusy, hcode, hflip, hbusy', hcode', hflip', hrxLen, hbyte, hin, hout, hin', hout'⟩

end Sys2Proof.Machine
end

section
/-! The statements of 40_phase_control.md: what the host's commands do, the watchdog of WORK, and the events that change
PHASE. -/

namespace Sys2Proof.Machine

/-! The commands. -/

theorem accept_idle {s : State} (hidle : s.cur.busy = false) (k : Endpoint → Endpoint) :
    accept k s = .next (s.setCur (k s.cur)) := if_neg (by simp [hidle])

/-- WORK sets BUSY and the position, which is W1's under AutoToggle and W2's choice under External (R120, R122, R123). -/
theorem Endpoint.startWork_eq (e : Endpoint) :
    e.startWork = { e with
      busy := true
      seq := if e.params.policy = .autoToggle then .w1
        else if e.phase = .receive then .wb0 .rx1 else if e.outLen = 0 then .tx1 else .tx2 } := by
  unfold startWork
  cases e.params.policy with
  | external => exact dispatch_eq _
  | autoToggle => rfl

/-- Settles O8: `Endpoint.startWork_eq` under each policy and phase. -/
theorem workIsAccepted : Obligations.WorkIsAccepted := by
  intro s hidle
  rw [exec_work, accept_idle hidle, Endpoint.startWork_eq]
  cases s.cur.params.policy with
  | autoToggle => rfl
  | external => cases hphase : s.cur.phase <;> simp [hphase]

/-- Bit 0 of ARG is the phase asked for (R124, 30_encoding.md R104). -/
theorem Endpoint.requestedPhase_eq (e : Endpoint) :
    e.requestedPhase = if e.arg.getLsbD 0 then .transmit else .receive := by
  have hbit : e.arg.extractLsb' 0 1 = BitVec.ofBool (e.arg.getLsbD 0) := by
    ext i hi
    obtain rfl : i = 0 := by omega
    simp
  rw [requestedPhase, hbit]
  cases e.arg.getLsbD 0 <;> rfl

/-- Settles O10: the phase asked for is `Endpoint.requestedPhase_eq`. -/
theorem setPhaseForcesThePhase : Obligations.SetPhaseForcesThePhase := by
  intro s hidle
  rw [exec_setPhase, accept_idle hidle, Endpoint.requestedPhase_eq]

/-- Settles O11: the seven rows share one meaning, `badCommand`. -/
theorem reservedCodesSetBadCommand : Obligations.ReservedCodesSetBadCommand := by
  intro s i hi hidle
  have hbad : exec i s = accept badCommand s := by
    rcases hi with rfl | ⟨low, rfl⟩ | ⟨low, rfl⟩ | ⟨low, rfl⟩ | ⟨low, rfl⟩ | ⟨low, rfl⟩ | ⟨low, rfl⟩ <;> rfl
  rw [hbad, accept_idle hidle, badCommand]

/-- Which of the fields that instructions write a command writes: the named ones one or two each, any other CODE. -/
theorem Endpoint.commandTurn_writes (e : Endpoint) (i : Instr) :
    (e.commandTurn i).inq = e.inq ∧ (e.commandTurn i).outq = e.outq ∧
      (i ≠ .work → (e.commandTurn i).busy = e.busy ∧ (e.commandTurn i).seq = e.seq) ∧
      (i ≠ .setTimeout → (e.commandTurn i).timeout = e.timeout) ∧
      (i ≠ .setPhase → (e.commandTurn i).phase = e.phase) ∧
      (i = .work ∨ i = .setTimeout ∨ i = .setPhase → (e.commandTurn i).code = e.code) := by
  cases i with
  | work => simp [commandTurn, startWork_eq]
  | setTimeout => simp [commandTurn]
  | setPhase => simp [commandTurn]
  | _ => simp [commandTurn, badCommand]

/-- Settles O20: an ignored command writes nothing, an accepted one what `Endpoint.commandTurn_writes` says. -/
theorem commandsWriteTheirFieldOnly : Obligations.CommandsWriteTheirFieldOnly := by
  intro w s t h
  rw [exec_decodeCmd] at h
  obtain rfl := Host.Outcome.next.inj h
  rw [State.setCur_cur]
  split
  · simp
  · exact s.cur.commandTurn_writes (decodeCmd w)

/-! The host's writes while BUSY = 1 (R126). -/

theorem Endpoint.hostTurn_busy {e : Endpoint} (h : e.busy = true) (addr : Nat) (n : Width) (v : Word) :
    e.hostTurn addr n v = e := by
  rcases e.hostTurn_cases addr n v with ⟨off, -, hturn⟩ | hturn
  · rw [hturn, writeTurn_busy h]
  · exact hturn

/-- Settles O43: a write that leaves its endpoint as it is changes nothing. -/
theorem busyWritesAreLost : Obligations.BusyWritesAreLost := fun _ _ addr n v _ hsched hbusy =>
  step_of_hostWrite_ignored hsched (Endpoint.hostTurn_busy hbusy addr n v)

/-! The watchdog (R122, R123). -/

/-- The engine's next step leaves what its turn gives. -/
theorem engineGives_of_engineTurn {s : State} {x : Side} {e : Endpoint} (h : (s.get x).engineTurn = e) :
    engineGives s x e := by
  intro rest hsched
  rw [step_eq, hsched, ← h]
  rfl

/-- W1: the clock is read into `t`. -/
theorem Endpoint.engineTurn_w1 {e : Endpoint} (hseq : e.seq = .w1) :
    e.engineTurn = { e with t := e.clock, seq := .toggle } := by
  rw [engineTurn_at hseq (by simp)]
  simp only [callTurn, hseq, engineStep, readWatch]

@[simp] theorem phaseFlip_phaseFlip (p : Phase) : phaseFlip (phaseFlip p) = p := by cases p <;> rfl

theorem phaseFlip_eq (p : Phase) : phaseFlip p = if p = .receive then .transmit else .receive := by cases p <;> rfl

/-- The watchdog's interval has passed between the latest refresh and the clock value read at W1. -/
abbrev Endpoint.pastInterval (e : Endpoint) : Prop := e.params.toggleIntervalUs.toNat < (e.t - e.wd).toNat

/-- The endpoint with the watchdog's check done, the dispatch still to come. -/
def Endpoint.watched (e : Endpoint) : Endpoint :=
  { e with
    phase := if e.pastInterval then phaseFlip e.phase else e.phase
    wd := if e.pastInterval then e.t else e.wd }

theorem Endpoint.settle_toggle {e : Endpoint} (hseq : e.seq = .toggle) : e.settle = e.watched.dispatch := by
  have hsettle : e.settle = e.watchdog := by simp only [settle, hseq]
  rw [hsettle, watched]
  by_cases hpast : e.pastInterval
  · rw [watchdog_past hpast, if_pos hpast, if_pos hpast]
  · rw [watchdog_within hpast, if_neg hpast, if_neg hpast]

/-- The dispatch into the receive path, whose first call reads the clock. -/
theorem Endpoint.callTurn_dispatch_receive {e : Endpoint} (hphase : e.phase = .receive) :
    e.dispatch.callTurn = { e with wstart := e.clock, seq := .wb1 .rx1 } := by
  rw [dispatch_eq, if_pos hphase]
  rfl

/-- The dispatch into the transmit path, whose first call sends ENQ, or CAN with nothing to send. -/
theorem Endpoint.callTurn_dispatch_transmit {e : Endpoint} (hphase : e.phase = .transmit) (hlen : e.outLen ≠ 0) :
    e.dispatch.callTurn = { e with outq := e.outq ++ [Config.enq], seq := .wb0 .tx3 } := by
  rw [dispatch_eq, if_neg (by simp [hphase]), if_neg hlen]
  rfl

theorem Endpoint.callTurn_dispatch_empty {e : Endpoint} (hphase : e.phase = .transmit) (hlen : e.outLen = 0) :
    e.dispatch.callTurn = { e with
      outq := e.outq ++ [Config.can], phase := .receive, code := .nothingToSend, busy := false, seq := .idle } := by
  rw [dispatch_eq, if_neg (by simp [hphase]), if_pos hlen]
  rfl

/-- Settles O29: the step after W1 dispatches from `Endpoint.watched`, whose phase and WD are the statement's. -/
theorem watchdogTogglesPastTheInterval : Obligations.WatchdogTogglesPastTheInterval := by
  intro s x
  refine ⟨fun hseq => engineGives_of_engineTurn (Endpoint.engineTurn_w1 hseq), ?_⟩
  intro hseq past ph e
  have hwatched : (s.get x).watched = e := by simp only [Endpoint.watched, phaseFlip_eq, e, ph, past]
  have hturn : (s.get x).engineTurn = e.dispatch.callTurn := by
    rw [Endpoint.engineTurn, Endpoint.settle_toggle hseq, hwatched]
  refine ⟨fun hphase => ?_, fun hphase hlen => ?_, fun hphase hlen => ?_⟩
  · exact engineGives_of_engineTurn (hturn.trans (Endpoint.callTurn_dispatch_receive hphase))
  · exact engineGives_of_engineTurn (hturn.trans (Endpoint.callTurn_dispatch_transmit hphase hlen))
  · exact engineGives_of_engineTurn (hturn.trans (Endpoint.callTurn_dispatch_empty hphase hlen))

/-! The events that change PHASE (R127, R128). -/

/-- PHASE and the watchdog's timestamp are as before. -/
def Endpoint.keepsPhase (e e' : Endpoint) : Prop := e'.phase = e.phase ∧ e'.wd = e.wd

/-- A WORK ends with one of the four statuses that flip PHASE, in the phase of its path: a frame refreshes WD, CAN leaves
it. -/
def Endpoint.endsInFlip (e e' : Endpoint) : Prop :=
  e.phase = .receive ∧ e'.code = .frameApplied ∧ e'.busy = false ∧ e'.wd = e.clock ∨
    e.phase = .receive ∧ e'.code = .peerCancelled ∧ e'.busy = false ∧ e'.wd = e.wd ∨
    e.phase = .transmit ∧ e'.code = .frameTransmitted ∧ e'.busy = false ∧ e'.wd = e.clock ∨
    e.phase = .transmit ∧ e'.code = .nothingToSend ∧ e'.busy = false ∧ e'.wd = e.wd

/-- An adapter call writes PHASE and WD at four positions alone. -/
theorem Endpoint.callTurn_keepsPhase {e : Endpoint} (hpos : e.seq ∉ [Seq.rd .rx1, .rx8, .tx1, .tx7]) :
    e.keepsPhase e.callTurn := by
  cases hseq : e.seq with
  | rx8 | tx1 | tx7 => simp [hseq] at hpos
  | rd call =>
    cases call with
    | rx1 => simp [hseq] at hpos
    | tx3 =>
      simp only [callTurn, hseq]
      (repeat' split) <;> exact ⟨rfl, rfl⟩
    | rx4 | rx5 | rx7 =>
      cases hinq : e.inq <;> simp only [callTurn, hseq, engineStep, readData, tryReadByte, hinq, takeData, checkFrame] <;>
        (repeat' split) <;> exact ⟨rfl, rfl⟩
  | wb2 call =>
    simp only [callTurn, hseq, engineStep, waitClock_eq]
    split <;> exact ⟨rfl, rfl⟩
  | tx4 =>
    simp only [callTurn, hseq, engineStep, sendLength]
    split <;> exact ⟨rfl, rfl⟩
  | tx5 =>
    simp only [callTurn, hseq, engineStep, sendPayload]
    split <;> exact ⟨rfl, rfl⟩
  | _ =>
    simp only [callTurn, hseq, engineStep, waitPoll_eq]
    exact ⟨rfl, rfl⟩

/-- From a sound endpoint the four are the ends of a WORK. -/
theorem Endpoint.Sound.callTurn_phase {e : Endpoint} (h : e.Sound) :
    e.keepsPhase e.callTurn ∨ e.callTurn.phase = phaseFlip e.phase ∧ e.endsInFlip e.callTurn := by
  cases hseq : e.seq with
  | rd call =>
    cases call with
    | rx1 =>
      obtain ⟨hphase, hbyte⟩ : e.phase = .receive ∧ e.inq ≠ [] := h.positionAt hseq
      obtain ⟨b, rest, hinq⟩ := List.exists_cons_of_ne_nil hbyte
      simp only [Endpoint.callTurn, hseq, hinq]
      split
      · exact .inl ⟨rfl, rfl⟩
      · split
        · exact .inr ⟨by rw [hphase]; rfl, .inr (.inl ⟨hphase, rfl, rfl, rfl⟩)⟩
        · exact .inl ⟨rfl, rfl⟩
    | _ => exact .inl (Endpoint.callTurn_keepsPhase (by simp [hseq]))
  | rx8 =>
    obtain ⟨hphase, -⟩ := h.positionAt hseq
    simp only [Endpoint.callTurn, hseq, Endpoint.engineStep]
    exact .inr ⟨by rw [hphase]; rfl, .inl ⟨hphase, rfl, rfl, rfl⟩⟩
  | tx7 =>
    obtain ⟨hphase, -⟩ := h.positionAt hseq
    simp only [Endpoint.callTurn, hseq, Endpoint.engineStep]
    exact .inr ⟨by rw [hphase]; rfl, .inr (.inr (.inl ⟨hphase, rfl, rfl, rfl⟩))⟩
  | tx1 =>
    obtain ⟨hphase, -⟩ := h.positionAt hseq
    simp only [Endpoint.callTurn, hseq]
    exact .inr ⟨by rw [hphase]; rfl, .inr (.inr (.inr ⟨hphase, rfl, rfl, rfl⟩))⟩
  | _ => exact .inl (Endpoint.callTurn_keepsPhase (by simp [hseq]))

/-- A local computation writes PHASE and WD in the watchdog's toggle alone. -/
theorem Endpoint.settle_phase (e : Endpoint) :
    e.keepsPhase e.settle ∨
      e.seq = .toggle ∧ e.pastInterval ∧ e.settle.phase = phaseFlip e.phase ∧ e.settle.wd = e.t := by
  cases hseq : e.seq with
  | toggle =>
    rw [settle_toggle hseq, dispatch_eq]
    by_cases hpast : e.pastInterval
    · exact .inr ⟨rfl, hpast, if_pos hpast, if_pos hpast⟩
    · exact .inl ⟨if_neg hpast, if_neg hpast⟩
  | latch =>
    left
    simp only [settle, hseq, latchLength]
    split <;> exact ⟨rfl, rfl⟩
  | store =>
    left
    simp only [settle, hseq, storePayload]
    split <;> simp [keepsPhase]
  | _ => exact .inl (by rw [settle_at hseq (by simp)]; exact ⟨rfl, rfl⟩)

/-- The engine's whole step flips PHASE by the end of a WORK or by the toggle. A toggle followed in the same step by the
CAN of a transmit path with nothing to send comes back to the phase before it. -/
theorem Endpoint.Sound.engineTurn_phase {e : Endpoint} (h : e.Sound) (hne : e.engineTurn.phase ≠ e.phase) :
    e.endsInFlip e.engineTurn ∨ e.seq = .toggle ∧ e.pastInterval ∧ e.engineTurn.wd = e.t := by
  obtain ⟨-, -, -, -, -, -, -, -, -, -, -, htime, -⟩ := e.settle_static
  have hclock : e.settle.clock = e.clock := by rw [clock, htime, clock]
  rcases e.settle_phase with ⟨hphase, hwd⟩ | ⟨hseq, hpast, hphase, hwd⟩
  · rcases h.settle.callTurn_phase with ⟨hkeep, -⟩ | ⟨-, hend⟩
    · exact absurd (hkeep.trans hphase) hne
    · left
      simpa only [endsInFlip, Endpoint.engineTurn, hphase, hwd, hclock] using hend
  · rcases h.settle.callTurn_phase with ⟨-, hkeep⟩ | ⟨hflip, -⟩
    · exact .inr ⟨hseq, hpast, hkeep.trans hwd⟩
    · exact absurd (by rw [Endpoint.engineTurn, hflip, hphase, phaseFlip_phaseFlip]) hne

/-- A host's write changes PHASE as SET_PHASE alone, accepted at CMD, and never WD. -/
theorem Endpoint.hostTurn_phase {e : Endpoint} {addr : Nat} {n : Width} {v : Word}
    (hne : (e.hostTurn addr n v).phase ≠ e.phase) :
    addr = e.hostAddr Config.offCmd ∧ n = .w4 ∧ decodeCmd v = .setPhase ∧
      (e.hostTurn addr n v).phase = e.requestedPhase ∧ (e.hostTurn addr n v).wd = e.wd := by
  have hidle : ¬ e.busy = true := fun hbusy => hne (by rw [hostTurn_busy hbusy])
  rcases e.hostTurn_cases addr n v with ⟨off, haddr, hturn⟩ | hturn
  · by_cases hcmd : off = Config.offCmd ∧ n = .w4
    · have hwrite : e.hostTurn addr n v = e.commandTurn (decodeCmd v) := by
        rw [hturn, writeTurn, if_neg hidle, if_pos hcmd]
      obtain ⟨-, -, -, -, hkeep, -⟩ := e.commandTurn_writes (decodeCmd v)
      have hset : decodeCmd v = .setPhase := by
        by_contra hother
        exact hne (by rw [hwrite, hkeep hother])
      obtain ⟨rfl, hn⟩ := hcmd
      rw [hwrite, hset]
      exact ⟨haddr, hn, rfl, rfl, rfl⟩
    · obtain ⟨arg, outLen, txData, hwrite⟩ := writeTurn_not_cmd hcmd v
      exact absurd (by rw [hturn, hwrite]) hne
  · exact absurd (by rw [hturn]) hne

/-- Settles O52: in each case of `step_get`, the events that can change PHASE; the toggle's position is one of AutoToggle
alone, by soundness. -/
theorem phaseChangesOnlyAsTheTableSays : Obligations.PhaseChangesOnlyAsTheTableSays := by
  intro s t x hsound hstep hne
  rcases step_get hstep x with
    ⟨rest, hsched, heq⟩ | ⟨addr, n, v, rest, hsched, heq⟩ | ⟨rest, hsched, -⟩ | ⟨b, _, heq, -⟩ | ⟨⟨heq, -⟩, -, -⟩
  · right; right
    rw [heq] at hne ⊢
    refine ⟨rest, hsched, ?_⟩
    rcases (hsound.get x).engineTurn_phase hne with (h | h | h | h) | ⟨hseq, hpast, hwd⟩
    · exact .inl h
    · exact .inr (.inl h)
    · exact .inr (.inr (.inl h))
    · exact .inr (.inr (.inr (.inl h)))
    · exact .inr (.inr (.inr (.inr ⟨(hsound.get x).positionAt hseq, hseq, hwd, hpast⟩)))
  · right; left
    rw [heq] at hne ⊢
    obtain ⟨rfl, rfl, hset, hphase, hwd⟩ := Endpoint.hostTurn_phase hne
    exact ⟨v, rest, hsched, hset, hphase, hwd⟩
  · exact .inl ⟨rest, hsched⟩
  · exact absurd (by rw [heq, Endpoint.arrive_phase]) hne
  · exact absurd (by rw [heq]) hne

end Sys2Proof.Machine
end

section
/-! The statements of 41_receive.md: the bytes a wire read consumes, the data bytes of the receive path, the completion
that applies a frame, and the whole receive attempt. -/

namespace Sys2Proof.Machine

/-! The wire bytes read as control (R142, R143, R144). -/

/-- Settles O12: ENQ and ACK are `atControl` at their positions, with a byte there. -/
theorem handshakeBytesLeadOn : Obligations.HandshakeBytesLeadOn := fun s _ _ hinq =>
  ⟨fun hseq => (exec_enq s).trans (atControl_eq hseq hinq), fun hseq => (exec_ack s).trans (atControl_eq hseq hinq)⟩

/-- Settles O13: CAN is `atControl` at RX1, with a byte there. -/
theorem canFlipsToTransmit : Obligations.CanFlipsToTransmit := fun s _ _ hseq hinq =>
  (exec_can s).trans (atControl_eq hseq hinq)

/-- Settles O14: RX_OTHER is `atControl` at RX1, with a byte there. -/
theorem otherFirstByteIsDiscarded : Obligations.OtherFirstByteIsDiscarded := fun s c _ _ hseq hinq =>
  (exec_rxOther c s).trans (atControl_eq hseq hinq)

/-- Settles O21: each of the five takes the FIFO's oldest byte by `atControl`, and what it goes on with writes no
stream. -/
theorem wireReadsConsumeOneByte : Obligations.WireReadsConsumeOneByte := by
  intro i c s t hi h
  simp only [List.mem_cons, List.not_mem_nil, or_false] at hi
  rcases hi with rfl | rfl | rfl | rfl | rfl
  · obtain ⟨-, b, rest, hinq, rfl⟩ := atControl_next ((exec_enq s).symm.trans h)
    simp [hinq]
  · obtain ⟨-, b, rest, hinq, rfl⟩ := atControl_next ((exec_can s).symm.trans h)
    simp [hinq]
  · obtain ⟨-, b, rest, hinq, rfl⟩ := atControl_next ((exec_rxOther c s).symm.trans h)
    simp [hinq]
  · obtain ⟨-, b, rest, hinq, rfl⟩ := atControl_next ((exec_ack s).symm.trans h)
    simp [hinq]
  · obtain ⟨-, b, rest, hinq, rfl⟩ := atControl_next ((exec_txOther c s).symm.trans h)
    simp [hinq]

/-! The waits and the data bytes (R145 to R149). -/

/-- WB2: the step of a wait that found no byte. -/
theorem Endpoint.engineTurn_wb2 {e : Endpoint} {call : Wait} (hseq : e.seq = .wb2 call) :
    e.engineTurn = e.waitClock call := by
  rw [engineTurn_at hseq (by simp)]
  simp only [callTurn, hseq, engineStep]

/-- Settles O24: past the window `Endpoint.waitClock` completes the command with the status of its call. -/
theorem waitTimeoutEndsTheCommand : Obligations.WaitTimeoutEndsTheCommand := by
  intro s x call hseq hlate
  have hend : (s.get x).waitClock call = (s.get x).complete call.timeoutStatus :=
    ((s.get x).waitClock_eq call).trans (if_pos hlate)
  apply engineGives_of_engineTurn
  rw [Endpoint.engineTurn_wb2 hseq, hend]
  cases call <;> rfl

/-- A step that begins with the local computation of a line and ends in the clock read of the next wait (log 4). -/
theorem Endpoint.engineTurn_waitStart {e : Endpoint} {call : Wait} (hseq : e.settle.seq = .wb0 call) :
    e.engineTurn = e.settle.waitStart call := by
  simp only [engineTurn, callTurn, hseq, engineStep]

/-- The read of a data byte that is there, at RX4, RX5 or RX7. -/
theorem Endpoint.engineTurn_data {e : Endpoint} {call : Wait} {b : Byte} {rest : List Byte} (hseq : e.seq = .rd call)
    (hinq : e.inq = b :: rest) (hrx1 : call ≠ .rx1) (htx3 : call ≠ .tx3) :
    e.engineTurn = { e with inq := rest }.takeData call b := by
  rw [engineTurn_at hseq (by simp), callTurn_data hseq hinq hrx1 htx3]

theorem Endpoint.settle_latch {e : Endpoint} (hseq : e.seq = .latch) : e.settle = e.latchLength := by
  simp only [settle, hseq]

theorem Endpoint.settle_store {e : Endpoint} (hseq : e.seq = .store) : e.settle = e.storePayload := by
  simp only [settle, hseq]

/-- Settles O25: the read keeps the byte in `r`, and `Endpoint.latchLength` by its two cases leads to the next wait. -/
theorem lengthByteIsLatched : Obligations.LengthByteIsLatched := by
  intro s x
  refine ⟨fun b rest hseq hinq => ?_, fun hseq hzero => ?_, fun hseq hpos => ?_⟩
  · exact engineGives_of_engineTurn (Endpoint.engineTurn_data hseq hinq nofun nofun)
  · have hsettle := (Endpoint.settle_latch hseq).trans (Endpoint.latchLength_zero _ hzero)
    apply engineGives_of_engineTurn
    rw [Endpoint.engineTurn_waitStart (call := .rx7) (by rw [hsettle]), hsettle]
    rfl
  · have hsettle := (Endpoint.settle_latch hseq).trans (Endpoint.latchLength_eq _ hpos)
    apply engineGives_of_engineTurn
    rw [Endpoint.engineTurn_waitStart (call := .rx5) (by rw [hsettle]), hsettle]
    rfl

/-- The wait after payload byte `i`: for the next one, or for the checksum byte after the last. -/
def Endpoint.nextWait (e : Endpoint) : Wait := if e.i.toNat + 1 < e.len.toNat then .rx5 else .rx7

/-- The step that stores payload byte `i` and begins the next wait; after the last byte it computes the fold of
FRAME_BUF as it then stands. -/
theorem Endpoint.engineTurn_store {e : Endpoint} (hseq : e.seq = .store) (hi : e.i.toNat < e.len.toNat) :
    e.engineTurn = { e.storeFrame e.i.toNat e.r with
      count := e.i.setWidth 16 + 1
      i := e.i + 1
      cksum := if e.i.toNat + 1 < e.len.toNat then e.cksum
        else xorFold (e.storeFrame e.i.toNat e.r).frameByte e.len.toNat
      wstart := e.clock
      seq := .wb1 e.nextWait } := by
  have hstore := settle_store hseq
  have hclock : (e.storeFrame e.i.toNat e.r).clock = e.clock := by simp only [clock, storeFrame_time]
  by_cases hmore : e.i.toNat + 1 < e.len.toNat
  · rw [storePayload_more hmore] at hstore
    rw [engineTurn_waitStart (call := .rx5) (by rw [hstore]), hstore, if_pos hmore, nextWait, if_pos hmore,
      ← hclock, ← e.storeFrame_cksum e.i.toNat e.r]
    rfl
  · rw [storePayload_last (by omega)] at hstore
    rw [engineTurn_waitStart (call := .rx7) (by rw [hstore]), hstore, if_neg hmore, nextWait, if_neg hmore, ← hclock]
    rfl

/-- Settles O26: the read keeps the byte in `r`; the next step is `Endpoint.engineTurn_store`, whose store is the one
write to FRAME_BUF. -/
theorem payloadByteIsStored : Obligations.PayloadByteIsStored := by
  refine ⟨fun s x b rest hseq hinq => engineGives_of_engineTurn (Endpoint.engineTurn_data hseq hinq nofun nofun), ?_⟩
  intro s x later hsched hseq hi
  have hlen := (s.get x).len.isLt
  have hcapacity : (s.get x).i.toNat < Config.bufCapacity := show _ < 500 by omega
  have hstep := engineGives_of_engineTurn (Endpoint.engineTurn_store hseq hi) later hsched
  refine ⟨_, hstep, ?_⟩
  rw [State.get_put, State.get_put_other, State.taken_get]
  have hbyte (k : Nat) : ((s.get x).storeFrame (s.get x).i.toNat (s.get x).r).frameByte k =
      if k = (s.get x).i.toNat then (s.get x).r else (s.get x).frameByte k := by
    simp only [Endpoint.storeFrame_frameByte, hcapacity, and_true]
  refine ⟨Endpoint.storeFrame_inq .., Endpoint.storeFrame_len .., hbyte, count_toNat _, rfl, ?_,
    Endpoint.storeFrame_phase .., Endpoint.storeFrame_code .., Endpoint.storeFrame_busy .., Endpoint.storeFrame_rxData ..,
    Endpoint.storeFrame_rxLen .., Endpoint.storeFrame_wd .., Endpoint.storeFrame_outq .., rfl⟩
  by_cases hmore : (s.get x).i.toNat + 1 < (s.get x).len.toNat
  · rw [if_pos hmore]
    exact ⟨congrArg Seq.wb1 (if_pos hmore), Endpoint.nextIndex_toNat hi, if_pos hmore⟩
  · rw [if_neg hmore]
    exact ⟨congrArg Seq.wb1 (if_neg hmore), if_neg hmore⟩

/-- Settles O27: the read at RX7 ends in `Endpoint.checkFrame`, by the outcome of its comparison. -/
theorem checksumByteIsCompared : Obligations.ChecksumByteIsCompared := by
  intro s x r rest hseq hinq
  have hturn := Endpoint.engineTurn_data hseq hinq nofun nofun
  exact ⟨fun hne => engineGives_of_engineTurn (hturn.trans (if_neg hne)),
    fun heq => engineGives_of_engineTurn (hturn.trans (if_pos heq))⟩

/-! The frame applied (R150, R151). -/

/-- RX_DATA after a frame is applied, over the whole window. -/
theorem Endpoint.applyFrame_rxByte_eq (e : Endpoint) (k : Nat) :
    e.applyFrame.rxByte k = if k < e.len.toNat then e.frameByte k else e.rxByte k := by
  by_cases hk : k < e.len.toNat
  · rw [if_pos hk, applyFrame_rxByte e hk]
  · have hlt := e.len.isLt
    show e.bufByte .rxData (e.rxData.copyIn 0 e.frameByte e.len.toNat) k = _
    rw [bufByte_copyIn _ _ _ _ _ _ _ (show 0 + e.len.toNat ≤ 256 by omega), if_neg (by omega), if_neg hk]
    rfl

/-- Settles O28: RX8's step is `Endpoint.applyFrame`, and the bytes it leaves in RX_DATA are
`Endpoint.applyFrame_rxByte_eq`. -/
theorem frameAppliedCopiesTheFrame : Obligations.FrameAppliedCopiesTheFrame := fun s x later hsched hseq =>
  ⟨(s.get x).applyFrame.rxData, engineGives_of_engineTurn (Endpoint.engineTurn_rx8 hseq) later hsched,
    (s.get x).applyFrame_rxByte_eq⟩

/-- The received frame that the host sees is as before. -/
def Endpoint.keepsResult (e e' : Endpoint) : Prop := e'.rxData = e.rxData ∧ e'.rxLen = e.rxLen

/-- An adapter call writes RX_DATA and RX_LEN at RX8 alone. -/
theorem Endpoint.callTurn_keepsResult {e : Endpoint} (hpos : e.seq ≠ .rx8) : e.keepsResult e.callTurn := by
  cases hseq : e.seq with
  | rx8 => contradiction
  | rd call =>
    cases call with
    | rx1 | tx3 =>
      simp only [callTurn, hseq]
      (repeat' split) <;> exact ⟨rfl, rfl⟩
    | rx4 | rx5 | rx7 =>
      cases hinq : e.inq <;>
        simp only [callTurn, hseq, engineStep, readData, tryReadByte, hinq, takeData, checkFrame] <;>
        (repeat' split) <;> exact ⟨rfl, rfl⟩
  | wb2 call =>
    simp only [callTurn, hseq, engineStep, waitClock_eq]
    split <;> exact ⟨rfl, rfl⟩
  | tx4 =>
    simp only [callTurn, hseq, engineStep, sendLength]
    split <;> exact ⟨rfl, rfl⟩
  | tx5 =>
    simp only [callTurn, hseq, engineStep, sendPayload]
    split <;> exact ⟨rfl, rfl⟩
  | _ =>
    simp only [callTurn, hseq, engineStep, waitPoll_eq]
    exact ⟨rfl, rfl⟩

/-- The engine's whole step writes them at RX8 alone, where it applies the frame. -/
theorem Endpoint.engineTurn_result (e : Endpoint) :
    e.keepsResult e.engineTurn ∨ e.seq = .rx8 ∧ e.engineTurn = e.applyFrame := by
  by_cases hseq : e.seq = .rx8
  · exact .inr ⟨hseq, engineTurn_rx8 hseq⟩
  · left
    obtain ⟨-, -, -, -, -, hdata, hlen, -⟩ := e.settle_static
    have hpos : e.settle.seq ≠ .rx8 := by
      rcases e.settle_cases with h | ⟨call, h⟩ | h | h <;> rw [h]
      · exact hseq
      all_goals exact nofun
    obtain ⟨hdata', hlen'⟩ := callTurn_keepsResult hpos
    exact ⟨hdata'.trans hdata, hlen'.trans hlen⟩

/-- A host's write leaves RX_DATA and RX_LEN as they are. -/
theorem Endpoint.hostTurn_keepsResult (e : Endpoint) (addr : Nat) (n : Width) (v : Word) :
    e.keepsResult (e.hostTurn addr n v) := by
  rcases e.hostTurn_cases addr n v with ⟨off, -, hturn⟩ | hturn
  · obtain ⟨-, -, -, hdata, hlen, -⟩ := e.writeTurn_static off n v
    rw [hturn]
    exact ⟨hdata, hlen⟩
  · rw [hturn]
    exact ⟨rfl, rfl⟩

/-- Settles O53: of the cases of `step_get` only a reset and the engine's step at RX8 write the two. -/
theorem noPartialFrameIsExposed : Obligations.NoPartialFrameIsExposed := by
  intro s t x hstep hne
  have hchanged : ¬ (s.get x).keepsResult (t.get x) := fun ⟨hdata, hlen⟩ => hne.elim (· hdata) (· hlen)
  rcases step_get hstep x with
    ⟨rest, hsched, heq⟩ | ⟨addr, n, v, rest, -, heq⟩ | ⟨rest, hsched, -⟩ | ⟨b, _, heq, -⟩ | ⟨⟨heq, -⟩, -, -⟩
  · rcases (s.get x).engineTurn_result with hkeep | ⟨hseq, happly⟩
    · exact absurd (heq ▸ hkeep) hchanged
    · rw [heq, happly]
      exact .inr ⟨rest, hsched, hseq, rfl, rfl, rfl⟩
  · exact absurd (heq ▸ (s.get x).hostTurn_keepsResult addr n v) hchanged
  · exact .inl ⟨rest, hsched⟩
  · exact absurd (heq ▸ ⟨rfl, rfl⟩) hchanged
  · exact absurd (heq ▸ ⟨rfl, rfl⟩) hchanged

/-! The whole receive attempt (R140, R149, R150, R153). -/

theorem Endpoint.engineTurn_idle {e : Endpoint} (hseq : e.seq = .idle) : e.engineTurn = e := by
  rw [engineTurn_at hseq (by simp)]
  simp only [callTurn, hseq, engineStep]

/-- A frame whose checksum byte is not the fold of its payload ends the command one turn earlier; in the turn left the
engine is Idle. -/
theorem Endpoint.engineTurn_receive_mismatch {e : Endpoint} {n ck : Byte} {data rest : List Byte}
    (hseq : e.seq = .wb0 .rx4) (hinq : e.inq = n :: (data ++ ck :: rest)) (hlen : data.length = n.toNat)
    (hck : ck ≠ xorFold (fun k => data.getD k 0) data.length) :
    engineTurn^[3 * data.length + 7] e =
      complete (storedPayload { e with len := n } data rest) .checksumMismatch := by
  have hcheck : checkFrame { storedPayload { e with len := n } data rest with seq := .rd .rx7 } ck =
      complete (storedPayload { e with len := n } data rest) .checksumMismatch := if_neg hck
  rw [Function.iterate_succ_apply', engineTurn_receive hseq hinq hlen, hcheck]
  exact engineTurn_idle rfl

/-- What a receiver is after its ACK: it waits for the length byte, the frame `tail` in its FIFO. -/
def Endpoint.answered (e : Endpoint) (tail : List Byte) : Endpoint :=
  { e with busy := true, wstart := e.clock, inq := tail, outq := e.outq ++ [Config.ack], seq := .wb0 .rx4 }

/-- WORK at a receiver whose FIFO begins with ENQ, the ACK sent, and then `m` turns of the frame. -/
theorem Runs.receiveAttempt {x : Side} {e e' f : Endpoint} {addr m : Nat} {tail : List Byte}
    (haddr : addr = e.hostAddr Config.offCmd) (hidle : e.busy = false) (hpolicy : e.params.policy = .external)
    (hphase : e.phase = .receive) (hinq : e.inq = Config.enq :: tail)
    (hframe : Endpoint.engineTurn^[m] (e.answered tail) = e') :
    Runs x e f (.hostWrite x addr .w4 0x01 :: List.replicate (m + 4) (.engine x)) e' f := by
  have hwork := Runs.command (x := x) haddr hidle 0x01 f
  rw [Endpoint.commandTurn_work_receive hpolicy hphase] at hwork
  have hturns : Endpoint.engineTurn^[m + 4] { e with busy := true, seq := .wb0 .rx1 } = e' := by
    rw [Function.iterate_add_apply,
      Endpoint.engineTurn_answer (e := { e with busy := true, seq := .wb0 .rx1 }) rfl hinq]
    exact hframe
  exact hwork.append (Runs.engines_eq hturns)

/-- What RX_DATA holds after a whole frame is received and applied: the payload, and past it what it held before. -/
theorem Endpoint.applyFrame_storedPayload_rxByte {e : Endpoint} {n : Byte} {data : List Byte} (tail : List Byte)
    (hlen : data.length = n.toNat) (k : Nat) :
    (applyFrame { storedPayload { e with len := n } data tail with seq := .rx8 }).rxByte k =
      if k < n.toNat then data.getD k 0 else e.rxByte k := by
  rw [applyFrame_rxByte_eq]
  by_cases hk : k < n.toNat
  · rw [if_pos hk]
    have hbyte := storedPayload_frameByte (e := { e with len := n }) (hlen.trans_le (Nat.le_of_lt_succ n.isLt)) tail
      (hk.trans_eq hlen.symm)
    exact (if_pos hk).trans hbyte
  · rw [if_neg hk]
    exact if_neg hk

/-- Settles O58: WORK and the ACK, then the frame, applied or refused by the comparison of its checksum. -/
theorem receiveAttemptEndsAsTheChecksumSays : Obligations.ReceiveAttemptEndsAsTheChecksumSays := by
  intro s x n ck data rest later hlen hidle hpolicy hphase hinq hsched
  have hrun {e : Endpoint} (hframe : Endpoint.engineTurn^[3 * data.length + 7]
      ((s.get x).answered (n :: (data ++ ck :: rest))) = e) :
      ∃ t, runSteps (3 * n.toNat + 12) s = .next t ∧ t.sched = later ∧ t.get x = e ∧
        t.get x.other = s.get x.other := by
    have h := Runs.receiveAttempt (x := x) (f := s.get x.other) rfl hidle hpolicy hphase hinq hframe s later rfl rfl
      (by rw [hlen]; exact hsched)
    rwa [List.length_cons, List.length_replicate, hlen] at h
  by_cases hck : ck = xorFold (fun k => data.getD k 0) n.toNat
  · obtain ⟨t, hsteps, hlater, he, hother⟩ :=
      hrun (Endpoint.engineTurn_receive_applied rfl (by rw [hlen, ← hck]; rfl) hlen)
    refine ⟨t, hsteps, hlater, hother, ?_⟩
    rw [if_pos hck, he]
    exact ⟨rfl, rfl, rfl, rfl, rfl, rfl, rfl, Endpoint.applyFrame_storedPayload_rxByte rest hlen⟩
  · obtain ⟨t, hsteps, hlater, he, hother⟩ := hrun (Endpoint.engineTurn_receive_mismatch rfl rfl hlen (hlen ▸ hck))
    refine ⟨t, hsteps, hlater, hother, ?_⟩
    rw [if_neg hck, he]
    exact ⟨rfl, rfl, rfl, rfl, rfl, hphase, rfl, rfl⟩

end Sys2Proof.Machine
end

section
/-! The statements of 42_transmit.md: the control bytes sent and the byte read after ENQ, the bytes of the frame and the
completion, and the whole transmit attempt. -/

namespace Sys2Proof.Machine

/-! The control bytes sent, and the byte read after ENQ (R171, R172, R173). -/

/-- Settles O15: TX_OTHER is `atControl` at TX3, with a byte there. -/
theorem otherByteAfterEnqEndsTheCommand : Obligations.OtherByteAfterEnqEndsTheCommand := fun s c _ _ hseq hinq =>
  (exec_txOther c s).trans (atControl_eq hseq hinq)

/-- Settles O16: SEND_CAN is `atEmit` at TX1, and what it goes on with is the completion in Receive phase. -/
theorem nothingToSendSendsCan : Obligations.NothingToSendSendsCan := fun s hseq =>
  (exec_sendCan s).trans (atEmit_eq hseq)

/-- Settles O17: SEND_ENQ and SEND_ACK are `atEmit` at their positions, each with its own wait to go on with. -/
theorem handshakeBytesAreSentThenAnswered : Obligations.HandshakeBytesAreSentThenAnswered := fun s =>
  ⟨fun hseq => (exec_sendEnq s).trans (atEmit_eq hseq), fun hseq => (exec_sendAck s).trans (atEmit_eq hseq)⟩

/-! The frame's bytes and the completion (R174, R175). -/

/-- `i <- i + 1` of the transmit loop does not wrap: `i` has 9 bits and OUT_LEN 8. -/
theorem Endpoint.nextSent_toNat {e : Endpoint} (h : e.i.toNat < e.outLen.toNat) :
    (e.i + 1).toNat = e.i.toNat + 1 :=
  nextIndex_toNat (e := { e with len := e.outLen }) h

/-- Settles O30: the turns at TX4, TX5 and TX6, where the loop's next index is `Endpoint.nextSent_toNat`. -/
theorem frameBytesAreSentInOrder : Obligations.FrameBytesAreSentInOrder := by
  intro s x
  refine ⟨fun hseq hlen => ?_, fun hseq hi => ?_, fun hseq => ?_⟩
  · exact engineGives_of_engineTurn (Endpoint.engineTurn_tx4 hseq hlen)
  · rw [← Endpoint.nextSent_toNat hi]
    exact engineGives_of_engineTurn (Endpoint.engineTurn_tx5 hseq)
  · exact engineGives_of_engineTurn (Endpoint.engineTurn_tx6 hseq)

/-- Settles O31: the turn at TX7, under either policy. -/
theorem frameTransmittedFlipsToReceive : Obligations.FrameTransmittedFlipsToReceive := fun _ _ hseq =>
  engineGives_of_engineTurn (Endpoint.engineTurn_tx7 hseq)

/-! The whole transmit attempt (R170, R177). -/

/-- What a sender is after its ENQ: it waits for the ACK. -/
def Endpoint.requested (e : Endpoint) : Endpoint :=
  { e with busy := true, outq := e.outq ++ [Config.enq], seq := .wb0 .tx3 }

/-- WORK at a sender whose FIFO begins with ACK: ENQ is sent, the ACK taken, the frame sent. -/
theorem Runs.transmitAttempt {x : Side} {e f : Endpoint} {addr : Nat} {rest : List Byte}
    (haddr : addr = e.hostAddr Config.offCmd) (hidle : e.busy = false) (hpolicy : e.params.policy = .external)
    (hphase : e.phase = .transmit) (hlen : e.outLen ≠ 0) (hinq : e.inq = Config.ack :: rest) :
    Runs x e f (.hostWrite x addr .w4 0x01 :: List.replicate (e.outLength + 7) (.engine x))
      (Endpoint.transmitted { e.requested with wstart := e.clock, inq := rest }) f := by
  have hwork := Runs.command (x := x) haddr hidle 0x01 f
  rw [Endpoint.commandTurn_work_transmit hpolicy hphase hlen] at hwork
  have hturns : Endpoint.engineTurn^[e.outLength + 7] { e with busy := true, seq := .tx2 } =
      Endpoint.transmitted { e.requested with wstart := e.clock, inq := rest } := by
    rw [Function.iterate_succ_apply, Endpoint.engineTurn_tx2 rfl]
    exact Endpoint.engineTurn_transmit (e := e.requested) rfl hinq hlen
  exact hwork.append (Runs.engines_eq hturns)

/-- The bytes a whole attempt sends: ENQ, the length, the payload in order, its fold. -/
theorem Endpoint.transmitted_requested_outq (e : Endpoint) (start : Word) (rest : List Byte) :
    (transmitted { e.requested with wstart := start, inq := rest }).outq =
      e.outq ++ [Config.enq, e.outLen] ++ e.payload ++ [xorFold e.txByte e.outLength] := by
  show e.outq ++ [Config.enq] ++ e.outLen :: (e.payload ++ [xorFold e.txByte e.outLength]) = _
  simp only [List.append_assoc, List.cons_append, List.nil_append]

/-- Settles O59: the schedule is the run of `Runs.transmitAttempt`, and its last state says what is asked. -/
theorem transmitAttemptSendsTheFrame : Obligations.TransmitAttemptSendsTheFrame := by
  intro s x rest later hlen hidle hpolicy hphase hinq hsched
  obtain ⟨t, hrun, hlater, he, hother⟩ :=
    Runs.transmitAttempt (x := x) (f := s.get x.other) rfl hidle hpolicy hphase hlen hinq s later rfl rfl hsched
  rw [List.length_cons, List.length_replicate] at hrun
  refine ⟨t, hrun, hlater, hother, ?_⟩
  rw [he]
  exact ⟨rfl, rfl, rfl, rfl, rfl, (s.get x).transmitted_requested_outq _ rest, rfl, rfl⟩

end Sys2Proof.Machine
end

section
/-! The statements of 43_checksum.md: what the XOR fold depends on, and which errors it detects. -/

namespace Sys2Proof.Machine

/-! The fold does not depend on the order of the bytes (R190, R192). -/

/-- The fold of a list's bytes by index is the list's own fold by XOR from 0x00, which is known not to see their order. -/
theorem xorFold_getD_eq_foldl (l : List Byte) :
    xorFold (fun k => l.getD k 0) l.length = l.foldl (· ^^^ ·) 0 := by
  induction l using List.reverseRecOn with
  | nil => rfl
  | append_singleton l b ih =>
    have hinit : xorFold (fun k => (l ++ [b]).getD k 0) l.length = xorFold (fun k => l.getD k 0) l.length :=
      xorFold_congr fun k hk => List.getD_append l [b] 0 k hk
    rw [List.length_append, List.length_singleton, xorFold, hinit, ih, List.foldl_append]
    simp

theorem xorFold_getD_eq_of_perm {l l' : List Byte} (h : l.Perm l') :
    xorFold (fun k => l.getD k 0) l.length = xorFold (fun k => l'.getD k 0) l'.length := by
  rw [xorFold_getD_eq_foldl, xorFold_getD_eq_foldl]
  exact h.foldl_op_eq

/-- Settles O33: the equations of the fold and of the two CKSUM computations are their definitions, the rest is
`xorFold_congr` and `xorFold_getD_eq_of_perm`. -/
theorem xorFoldDependsOnTheBytesAlone : Obligations.XorFoldDependsOnTheBytesAlone :=
  ⟨fun _ => rfl, fun _ _ => rfl, fun _ _ _ => xorFold_congr, fun _ _ => xorFold_getD_eq_of_perm,
    fun _ => ⟨rfl, rfl⟩, fun _ _ => ⟨rfl, rfl⟩⟩

/-! Detection (R193). -/

/-- The fold is linear: the errors' masks fold apart from the payload they change. -/
theorem xorFold_xor (a m : Nat → Byte) (n : Nat) :
    xorFold (fun k => a k ^^^ m k) n = xorFold a n ^^^ xorFold m n := by
  induction n with
  | zero => exact (BitVec.xor_self (x := 0)).symm
  | succ n ih => simp only [xorFold, ih]; ac_rfl

/-- Settles O34: by `xorFold_xor` the fold of the payload cancels, and only the masks are compared. -/
theorem errorsAreDetectedByTheirMasks : Obligations.ErrorsAreDetectedByTheirMasks := by
  intro a m mc n
  refine not_congr ?_
  calc xorFold a n ^^^ mc = xorFold (fun k => a k ^^^ m k) n
      ↔ xorFold a n ^^^ mc = xorFold a n ^^^ xorFold m n := by rw [xorFold_xor]
    _ ↔ xorFold m n = mc := (BitVec.xor_right_inj _).trans eq_comm
    _ ↔ xorFold m n ^^^ mc = 0 := BitVec.xor_eq_zero_iff.symm

end Sys2Proof.Machine
end

section
/-! The statements of 44_timeout.md: SET_TIMEOUT's floor, and the steps of a wait before its window has passed. -/

namespace Sys2Proof.Machine

/-! SET_TIMEOUT (R205, R206). -/

/-- The unsigned maximum (00_scope.md R16), by the values of the words. -/
theorem maxWord_eq (a b : Word) : maxWord a b = if a.toNat < b.toNat then b else a := rfl

/-- Settles O9: the timeout stored is `maxWord_eq` of ARG and the floor. -/
theorem setTimeoutClampsToTheFloor : Obligations.SetTimeoutClampsToTheFloor := by
  intro s hidle
  rw [exec_setTimeout, accept_idle hidle, maxWord_eq, Endpoint.requestedTimeout]

/-! The wait (R200, R204). -/

/-- WB0: the step that begins a wait, where no local computation is left. -/
theorem Endpoint.engineTurn_wb0 {e : Endpoint} {call : Wait} (hseq : e.seq = .wb0 call) :
    e.engineTurn = e.waitStart call := by
  have hsettle : e.settle = e := settle_at hseq (by simp)
  rw [engineTurn_waitStart (hsettle.symm ▸ hseq), hsettle]

/-- WB1: the step that polls for a byte. -/
theorem Endpoint.engineTurn_wb1 {e : Endpoint} {call : Wait} (hseq : e.seq = .wb1 call) :
    e.engineTurn = e.waitPoll call := by
  rw [engineTurn_at hseq (by simp)]
  simp only [callTurn, hseq, engineStep]

/-- WB2 within the window: the comparison is strict, so a difference equal to TIMEOUT polls again. -/
theorem Endpoint.engineTurn_wb2_within {e : Endpoint} {call : Wait} (hseq : e.seq = .wb2 call)
    (hwithin : (e.clock - e.wstart).toNat ≤ e.timeout.toNat) : e.engineTurn = { e with seq := .wb1 call } := by
  rw [engineTurn_wb2 hseq, waitClock_eq, if_neg (Nat.not_lt.2 hwithin)]

/-- Settles O23: the poll's two outcomes are `Endpoint.waitPoll_eq`, and no clock difference exceeds the greatest
TIMEOUT. -/
theorem waitPollsTheByteBeforeTheClock : Obligations.WaitPollsTheByteBeforeTheClock := by
  intro s x call
  refine ⟨fun hseq => ?start, fun hseq hbyte => ?found, fun hseq hnone => ?empty, fun hseq hwithin => ?within,
    fun hseq hmax => ?unbounded⟩
  case start => exact engineGives_of_engineTurn (Endpoint.engineTurn_wb0 hseq)
  case found =>
    apply engineGives_of_engineTurn
    rw [Endpoint.engineTurn_wb1 hseq, Endpoint.waitPoll_eq, if_neg hbyte]
  case empty =>
    apply engineGives_of_engineTurn
    rw [Endpoint.engineTurn_wb1 hseq, Endpoint.waitPoll_eq, if_pos hnone]
  case within => exact engineGives_of_engineTurn (Endpoint.engineTurn_wb2_within hseq hwithin)
  case unbounded =>
    have hwithin : ((s.get x).clock - (s.get x).wstart).toNat ≤ (s.get x).timeout.toNat := by
      rw [hmax]
      exact Nat.le_of_lt_succ (BitVec.isLt _)
    exact engineGives_of_engineTurn (Endpoint.engineTurn_wb2_within hseq hwithin)

end Sys2Proof.Machine
end

section
/-! The statements of 45_transport_adapter.md: the steps of the line and of the clock, and the ways an inbound FIFO
changes. -/

namespace Sys2Proof.Machine

/-! The line's steps (R227, R228). -/

/-- The line takes the oldest byte of a nonempty outbound stream. -/
theorem State.takeOut_eq {s : State} {x : Side} {b : Byte} {out : List Byte} (houtq : (s.get x).outq = b :: out)
    (f : Byte → Endpoint → Endpoint) :
    s.takeOut x f = (s.put x { s.get x with outq := out }).put x.other (f b (s.get x.other)) := by
  rw [takeOut, houtq]

/-- Delivery moves the byte as it is. -/
theorem State.lineDeliver_eq {s : State} {x : Side} {b : Byte} {out : List Byte} (houtq : (s.get x).outq = b :: out) :
    s.lineDeliver x = (s.put x { s.get x with outq := out }).put x.other ((s.get x.other).arrive b) :=
  takeOut_eq houtq _

/-- Loss leaves the peer alone. -/
theorem State.lineLose_eq {s : State} {x : Side} {b : Byte} {out : List Byte} (hlossy : s.linkModel = .lossy)
    (houtq : (s.get x).outq = b :: out) : s.lineLose x = s.put x { s.get x with outq := out } := by
  have hpeer := (s.put x { s.get x with outq := out }).put_get x.other
  rw [get_put_other] at hpeer
  rw [lineLose, hlossy]
  exact (takeOut_eq houtq _).trans hpeer

/-- Corruption gives the peer another byte in place of the one taken. -/
theorem State.lineCorrupt_eq {s : State} {x : Side} {b : Byte} {out : List Byte} (hlossy : s.linkModel = .lossy)
    (houtq : (s.get x).outq = b :: out) (c : Byte) :
    s.lineCorrupt x c = (s.put x { s.get x with outq := out }).put x.other ((s.get x.other).arrive c) := by
  rw [lineCorrupt, hlossy]
  exact takeOut_eq houtq _

/-- Noise takes no byte, whatever is outbound. -/
theorem State.lineNoise_eq {s : State} (hlossy : s.linkModel = .lossy) (x : Side) (c : Byte) :
    s.lineNoise x c = s.put x ((s.get x).arrive c) := by rw [lineNoise, hlossy]

/-- Settles O44: the line acts on the link whose schedule the event was taken from, with the endpoints of `s`. -/
theorem lineStepsMoveTheOldestByte : Obligations.LineStepsMoveTheOldestByte := by
  have hline {s : State} (rest : List Event) (h : s.linkModel = .lossy) :
      State.linkModel { s with sched := rest } = .lossy := h
  refine ⟨fun s x b c out rest houtq => ?outbound, fun s x c rest hlossy hsched => ?noise⟩
  case outbound =>
    have hout : (State.get { s with sched := rest } x).outq = b :: out := by rw [State.get_sched, houtq]
    refine ⟨fun hsched => ?deliver, fun hlossy hsched => ?lose, fun hlossy hsched => ?corrupt⟩
    case deliver => simp only [step_eq, hsched, State.lineDeliver_eq hout, State.get_sched, Endpoint.arrive]
    case lose => simp only [step_eq, hsched, State.lineLose_eq (hline rest hlossy) hout, State.get_sched]
    case corrupt =>
      simp only [step_eq, hsched, State.lineCorrupt_eq (hline rest hlossy) hout, State.get_sched, Endpoint.arrive]
  case noise =>
    simp only [step_eq, hsched, State.lineNoise_eq (hline rest hlossy), State.get_sched, Endpoint.arrive]

/-! The clock (R224). -/

/-- Settles O46: the clock's value is that of `BitVec.ofNat`, its step `step_eq` at the clock event. -/
theorem clockAdvancesAndWraps : Obligations.ClockAdvancesAndWraps := by
  intro s x d rest hsched
  refine ⟨BitVec.toNat_ofNat _ _, ?_⟩
  simp only [step_eq, hsched, State.tick, State.get_sched]

/-! The inbound FIFO (R225, R226). -/

@[simp] theorem Endpoint.takeData_inq (e : Endpoint) (call : Wait) (r : Byte) : (e.takeData call r).inq = e.inq := by
  cases call with
  | rx7 =>
    simp only [takeData, checkFrame]
    split <;> rfl
  | _ => rfl

/-- The read that ends a wait takes the oldest byte, control or data, if there is one (R222). -/
theorem Endpoint.callTurn_read_inq {e : Endpoint} {call : Wait} (hseq : e.seq = .rd call) :
    e.callTurn.inq = e.inq.tail := by
  cases hinq : e.inq with
  | nil => cases call <;> simp [callTurn, hseq, hinq, engineStep, readData, tryReadByte]
  | cons b rest =>
    cases call with
    | rx1 | tx3 =>
      simp only [callTurn, hseq, hinq]
      (repeat' split) <;> rfl
    | rx4 | rx5 | rx7 => rw [callTurn_data hseq hinq nofun nofun, takeData_inq, List.tail_cons]

/-- Every other adapter call leaves the FIFO as it is. -/
theorem Endpoint.callTurn_inq_of_no_read {e : Endpoint} (hpos : ∀ call, e.seq ≠ .rd call) :
    e.callTurn.inq = e.inq := by
  cases hseq : e.seq with
  | rd call => exact absurd hseq (hpos call)
  | wb2 call =>
    simp only [callTurn, hseq, engineStep, waitClock_eq]
    split <;> rfl
  | tx4 =>
    simp only [callTurn, hseq, engineStep, sendLength]
    split <;> rfl
  | tx5 =>
    simp only [callTurn, hseq, engineStep, sendPayload]
    split <;> rfl
  | _ => simp [callTurn, hseq, engineStep, readWatch, waitPoll_eq, applyFrame, sendChecksum, finishTransmit]

/-- The engine's whole step leaves the FIFO or takes its oldest byte. -/
theorem Endpoint.engineTurn_inq (e : Endpoint) : e.engineTurn.inq = e.inq ∨ ∃ b, e.inq = b :: e.engineTurn.inq := by
  obtain ⟨-, -, -, -, -, -, -, hsettle, -⟩ := e.settle_static
  rw [engineTurn, ← hsettle]
  by_cases hread : ∃ call, e.settle.seq = .rd call
  · obtain ⟨call, hseq⟩ := hread
    rw [callTurn_read_inq hseq]
    cases e.settle.inq with
    | nil => exact .inl rfl
    | cons b rest => exact .inr ⟨b, rfl⟩
  · exact .inl (callTurn_inq_of_no_read (not_exists.1 hread))

/-- A host's write leaves the FIFO as it is. -/
@[simp] theorem Endpoint.hostTurn_inq (e : Endpoint) (addr : Nat) (n : Width) (v : Word) :
    (e.hostTurn addr n v).inq = e.inq := by
  rcases e.hostTurn_cases addr n v with ⟨off, -, hturn⟩ | hturn
  · obtain ⟨-, -, -, -, -, hinq, -⟩ := e.writeTurn_static off n v
    rw [hturn, hinq]
  · rw [hturn]

/-- Settles O45: of the cases of `step_get`, the engine's step can take the oldest byte, by `Endpoint.engineTurn_inq`, and
a byte arrives by the line's events alone. -/
theorem inboundFifoChangesOneWay : Obligations.InboundFifoChangesOneWay := by
  intro s t x hstep
  rcases step_get hstep x with
    ⟨rest, hsched, heq⟩ | ⟨addr, n, v, _, -, heq⟩ | ⟨_, -, heq⟩ | ⟨b, rest, heq, hline⟩ | ⟨⟨heq, -⟩, -, -⟩
  · rcases (s.get x).engineTurn_inq with hkeep | ⟨b, htake⟩
    · exact .inl (by rw [heq, hkeep])
    · exact .inr (.inr ⟨b, rest, by rw [heq]; exact htake, hsched⟩)
  · exact .inl (by rw [heq, Endpoint.hostTurn_inq])
  · exact .inl (by rw [heq, Endpoint.resetTo_inq])
  · exact .inr (.inl ⟨b, rest, by rw [heq, Endpoint.arrive_inq], hline⟩)
  · exact .inl (by rw [heq])

end Sys2Proof.Machine
end

section
/-! The statements of 60_exceptions.md: every step answers, the Idle engine, and what the endpoints share. -/

namespace Sys2Proof.Machine

/-- Settles O49: `step_eq` gives the next state, event by event. -/
theorem everyStepAnswersNext : Obligations.EveryStepAnswersNext := fun s => ⟨_, step_eq s⟩

/-- Settles O32: an Idle engine's whole turn is `Endpoint.engineTurn_idle`. -/
theorem idleEngineDoesNothing : Obligations.IdleEngineDoesNothing := fun _ _ hseq =>
  engineGives_of_engineTurn (Endpoint.engineTurn_idle hseq)

/-! What a step of one endpoint's agents leaves unchanged (R254). -/

/-- A host's read leaves the other endpoint, inside the block and outside it. -/
theorem State.readTurn_get_other (s : State) (addr : Nat) (n : Width) :
    (s.readTurn addr n).get s.turn.other = s.get s.turn.other := by
  unfold readTurn
  split
  · exact (get_draws _ _ _).trans (s.setCur_get_other _)
  · rfl

theorem State.resetCur_get_other (s : State) : s.resetCur.get s.turn.other = s.get s.turn.other :=
  (get_draws _ _ _).trans (s.setCur_get_other _)

/-- Settles O56: the next state is that of `step_eq`, and at each of the five events it differs from `s` at `x` alone. -/
theorem endpointsShareOnlyTheLine : Obligations.EndpointsShareOnlyTheLine := by
  intro s t x ev rest hsched hstep hev
  rw [step_eq, hsched] at hstep
  obtain rfl := Host.Outcome.next.inj hstep
  have hacting : (({ s with sched := rest } : State).atSide x).get x.other = s.get x.other := by simp
  rcases hev with rfl | ⟨addr, n, rfl⟩ | ⟨addr, n, v, rfl⟩ | ⟨d, rfl⟩ | rfl
  · exact (State.get_put_other ..).trans hacting
  · exact (State.readTurn_get_other ..).trans hacting
  · exact (State.get_put_other ..).trans hacting
  · exact (State.get_put_other ..).trans (State.get_sched ..)
  · exact (State.resetCur_get_other _).trans hacting

end Sys2Proof.Machine
end

section
/-! The statements of 70_reset_and_hazards.md: what the reset event sets and leaves, and the link right after reset. -/

namespace Sys2Proof.Machine

/-! The bytes of the buffers after a reset (10_state.md R46). -/

@[simp] theorem Endpoint.bufByte_nil (e : Endpoint) (buf : Buf) (k : Nat) :
    e.bufByte buf [] k = Config.resetByte e.epoch buf k := rfl

@[simp] theorem Endpoint.resetTo_frameByte (e : Endpoint) (n k : Nat) :
    (e.resetTo n).frameByte k = Config.resetByte n .frameBuf k := (e.resetTo n).bufByte_nil .frameBuf k

@[simp] theorem Endpoint.resetTo_txByte (e : Endpoint) (n k : Nat) :
    (e.resetTo n).txByte k = Config.resetByte n .txData k := (e.resetTo n).bufByte_nil .txData k

@[simp] theorem Endpoint.resetTo_rxByte (e : Endpoint) (n k : Nat) :
    (e.resetTo n).rxByte k = Config.resetByte n .rxData k := (e.resetTo n).bufByte_nil .rxData k

/-! The reset event (R270, R272). -/

theorem State.resetCur_get (s : State) : s.resetCur.get s.turn = (s.get s.turn).resetTo s.draws :=
  (get_draws _ _ _).trans (get_put _ _ _)

theorem step_of_reset {s : State} {x : Side} {rest : List Event} (hsched : s.sched = .reset x :: rest) :
    step s = .next (s.taken x rest).resetCur := by
  rw [step_eq, hsched]
  rfl

/-- Settles O47: the endpoint the event names is reset with the link's draw, and the other one stays. -/
theorem resetSetsEveryField : Obligations.ResetSetsEveryField := by
  intro s x rest hsched
  have hself : (s.taken x rest).resetCur.get x = (s.get x).resetTo s.draws :=
    (s.taken x rest).resetCur_get.trans (by rw [State.taken_turn, State.taken_get]; rfl)
  have hother : (s.taken x rest).resetCur.get x.other = s.get x.other :=
    (s.taken x rest).resetCur_get_other.trans (s.taken_get x x.other rest)
  have hline : (s.taken x rest).resetCur.linkModel = s.linkModel :=
    (s.taken x rest).setCur_linkModel _
  refine ⟨_, step_of_reset hsched, ?_⟩
  simp [hself, hother, hline, Params.timeoutResetUs, Endpoint.clock, Status.value]

/-! The link right after reset (R271). -/

theorem State.reset_get (x : Side) : ∃ epoch, State.reset.get x = Endpoint.fresh Params.default epoch := by
  cases x with
  | a => exact ⟨0, rfl⟩
  | b => exact ⟨1, rfl⟩

theorem Endpoint.startWork_busy (e : Endpoint) : e.startWork.busy = true := by rw [startWork_eq]

/-- Where BUSY = 0 a WORK is accepted, and BUSY is 1 after it (40_phase_control.md R120, R121). -/
theorem exec_work_busy {s : State} {x : Side} (hidle : (s.get x).busy = false) :
    ∃ t, exec .work (s.atSide x) = .next t ∧ (t.get x).busy = true := by
  have hcur : (s.atSide x).cur.busy = false := by rw [State.atSide_cur, hidle]
  refine ⟨_, (exec_work _).trans (accept_idle hcur _), ?_⟩
  rw [State.atSide_setCur, State.get_put, Endpoint.startWork_busy]

/-- Settles O48: both endpoints are fresh ones of the default instantiation, and `exec_work_busy` accepts the WORK. -/
theorem resetStateIsIdle : Obligations.ResetStateIsIdle := by
  intro x
  obtain ⟨epoch, hfresh⟩ := State.reset_get x
  have hidle : (State.reset.get x).busy = false := by rw [hfresh, Endpoint.fresh]
  refine ⟨?_, hidle, ?_, ?_, ?_, exec_work_busy hidle⟩ <;> rw [hfresh] <;> rfl

end Sys2Proof.Machine
end

section
/-! The statement of 30_encoding.md on the wire bytes away from their position, or with no byte to read (R99; log 13). -/

namespace Sys2Proof.Machine

theorem atControl_notAtPosition {call : Wait} {s : State} (hseq : s.cur.seq ≠ .rd call) (k : Endpoint → Endpoint) :
    atControl call k s = .fault .notAtPosition := if_neg hseq

theorem atControl_noByte {call : Wait} {s : State} (hseq : s.cur.seq = .rd call) (hinq : s.cur.inq = [])
    (k : Endpoint → Endpoint) : atControl call k s = .fault .noByte := by
  simp [atControl, hseq, Endpoint.tryReadByte, hinq]

theorem atEmit_notAtPosition {pos : Seq} {s : State} (hseq : s.cur.seq ≠ pos) (b : Byte) (k : Endpoint → Endpoint) :
    atEmit pos b k s = .fault .notAtPosition := if_neg hseq

/-- The meanings of a first byte are control reads at RX1 (R100). -/
theorem exec_firstByte {i : Instr} {c : Byte} (hi : i ∈ [Instr.enq, .can, .rxOther c]) (s : State) :
    ∃ k, exec i s = atControl .rx1 k s := by
  simp only [List.mem_cons, List.not_mem_nil, or_false] at hi
  rcases hi with rfl | rfl | rfl
  · exact ⟨_, exec_enq s⟩
  · exact ⟨_, exec_can s⟩
  · exact ⟨_, exec_rxOther c s⟩

/-- The meanings of the byte after ENQ are control reads at TX3 (R101). -/
theorem exec_answerByte {i : Instr} {c : Byte} (hi : i ∈ [Instr.ack, .txOther c]) (s : State) :
    ∃ k, exec i s = atControl .tx3 k s := by
  simp only [List.mem_cons, List.not_mem_nil, or_false] at hi
  rcases hi with rfl | rfl
  · exact ⟨_, exec_ack s⟩
  · exact ⟨_, exec_txOther c s⟩

/-- Settles O18: the five bytes read are `atControl` at their position and the three sent `atEmit` at theirs; both stop
anywhere else, and `atControl` also where the FIFO is empty. -/
theorem wireBytesStopOffPosition : Obligations.WireBytesStopOffPosition := by
  intro s c
  refine ⟨fun hseq i hi => ?firstAway, fun hseq i hi => ?answerAway, fun hseq hinq i hi => ?firstEmpty,
    fun hseq hinq i hi => ?answerEmpty, fun hseq => ?sendCan, fun hseq => ?sendEnq, fun hseq => ?sendAck⟩
  case firstAway =>
    obtain ⟨k, hexec⟩ := exec_firstByte hi s
    exact hexec.trans (atControl_notAtPosition hseq k)
  case answerAway =>
    obtain ⟨k, hexec⟩ := exec_answerByte hi s
    exact hexec.trans (atControl_notAtPosition hseq k)
  case firstEmpty =>
    obtain ⟨k, hexec⟩ := exec_firstByte hi s
    exact hexec.trans (atControl_noByte hseq hinq k)
  case answerEmpty =>
    obtain ⟨k, hexec⟩ := exec_answerByte hi s
    exact hexec.trans (atControl_noByte hseq hinq k)
  case sendCan => exact (exec_sendCan s).trans (atEmit_notAtPosition hseq ..)
  case sendEnq => exact (exec_sendEnq s).trans (atEmit_notAtPosition hseq ..)
  case sendAck => exact (exec_sendAck s).trans (atEmit_notAtPosition hseq ..)

end Sys2Proof.Machine
end
